-- ==== Sys2Proof/Word.lean ====
section
/-! DEFINITION. The word types of the engine (00_scope.md R13, R17; 10_state.md R101, R102).

Every register and every RAM word is 32 bits wide. An `f32` value is the same 32 bits read as an
IEEE 754 binary32 pattern, so `F32` and `Word` are one type and `x as f32` (R28) is the identity. -/

namespace Sys2Proof

/-- A 32-bit register or RAM word (R101). -/
abbrev Word := BitVec 32

/-- A binary32 bit pattern: sign [31], exponent [30:23], fraction [22:0] (R17, R206). -/
abbrev F32 := BitVec 32

/-- One byte of RAM (R206). -/
abbrev Byte := BitVec 8

end Sys2Proof
end

