-- ==== Sys2Proof/Machine/Float.lean ====
section
/-! DEFINITION. IEEE 754 binary32 arithmetic, round to nearest, ties to even (00_scope.md R17-R20).

Every finite binary32 value is an integer multiple of 2^-149. `fix` is that integer, so sums, products
and quotients are computed exactly on integers and rounded once, by `roundMag`. -/

namespace Sys2Proof.Machine

/-- The sign bit [31] (R206). -/
def fSign (x : F32) : Bool := decide (2 ^ 31 ≤ x.toNat)

/-- The magnitude bits [30:0], which order the non-NaN values of one sign. -/
def fMag (x : F32) : Nat := x.toNat % 2 ^ 31

/-- The magnitude bits of infinity: exponent 255, fraction 0. -/
def infMag : Nat := 0x7F800000

/-- The canonical quiet NaN every NaN result delivers (R20). -/
def qNaN : F32 := 0x7FC00000#32

def isNaN (x : F32) : Bool := decide (infMag < fMag x)

def isInf (x : F32) : Bool := fMag x == infMag

def isFinite (x : F32) : Bool := decide (fMag x < infMag)

/-- The pattern with the given sign and magnitude bits. -/
def fPack (neg : Bool) (mag : Nat) : F32 := BitVec.ofNat 32 (if neg then 2 ^ 31 + mag else mag)

/-- The place of a non-NaN value in the IEEE order; both zeros stand at 0 (R19). -/
def fOrd (x : F32) : Int := if fSign x then -(fMag x : Int) else (fMag x : Int)

/-- `x < y` (R19): false when an operand is NaN. -/
def fLt (x y : F32) : Bool := !isNaN x && !isNaN y && decide (fOrd x < fOrd y)

/-- `x <= y` (R19): false when an operand is NaN. -/
def fLe (x y : F32) : Bool := !isNaN x && !isNaN y && decide (fOrd x ≤ fOrd y)

/-- `x == y` (R19): `+0.0 == -0.0`, and NaN equals nothing. -/
def fEq (x y : F32) : Bool := !isNaN x && !isNaN y && decide (fOrd x = fOrd y)

/-- `min(a, b)` is `(b < a) ? b : a` (R19). -/
def fMin (a b : F32) : F32 := if fLt b a then b else a

/-- `max(a, b)` is `(b > a) ? b : a` (R19). -/
def fMax (a b : F32) : F32 := if fLt a b then b else a

/-- Negation flips the sign bit exactly (R19). -/
def fNeg (x : F32) : F32 := x ^^^ 0x80000000#32

/-- The value of magnitude bits in units of 2^-149: a subnormal is its fraction; a normal value is
`(2^23 + fraction) * 2^(exponent - 1)`. -/
def fixMag (m : Nat) : Nat := if m < 2 ^ 23 then m else (2 ^ 23 + m % 2 ^ 23) * 2 ^ (m / 2 ^ 23 - 1)

/-- The exact value of a finite pattern, in units of 2^-149. -/
def fix (x : F32) : Int := if fSign x then -(fixMag (fMag x) : Int) else (fixMag (fMag x) : Int)

/-- `n / d` rounded to the nearest integer, ties to even. -/
def roundDiv (n d : Nat) : Nat :=
  if 2 * (n % d) < d then n / d
  else if d < 2 * (n % d) then n / d + 1
  else n / d + n / d % 2

/-- The magnitude bits of the binary32 value nearest to `n / d` units of 2^-149, ties to even
(R18). `e` is the binade above the subnormals; the significand `roundDiv n (d * 2^e)` carries its
implicit bit into the exponent field; anything at or past the overflow boundary is infinity. -/
def roundMag (n d : Nat) : Nat :=
  min (((n / d).log2 - 23) * 2 ^ 23 + roundDiv n (d * 2 ^ ((n / d).log2 - 23))) infMag

/-- `fl(x + y)` (R18, R20). An exact zero sum is +0.0 unless both operands are negative. PRESUMED from IEEE 754,
unsafe: log entry 19. -/
def fAdd (x y : F32) : F32 :=
  if isNaN x || isNaN y then qNaN
  else if isInf x then (if isInf y && fSign x != fSign y then qNaN else x)
  else if isInf y then y
  else if fix x + fix y = 0 then fPack (fSign x && fSign y) 0
  else fPack (decide (fix x + fix y < 0)) (roundMag (fix x + fix y).natAbs 1)

/-- `fl(x - y)` (R18): the sum with the exact negation. -/
def fSub (x y : F32) : F32 := fAdd x (fNeg y)

/-- `fl(x × y)` (R18, R20). -/
def fMul (x y : F32) : F32 :=
  if isNaN x || isNaN y then qNaN
  else if (isInf x && fMag y == 0) || (isInf y && fMag x == 0) then qNaN
  else if isInf x || isInf y then fPack (fSign x != fSign y) infMag
  else fPack (fSign x != fSign y) (roundMag (fixMag (fMag x) * fixMag (fMag y)) (2 ^ 149))

/-- `fl(x ÷ y)` (R18, R20). -/
def fDiv (x y : F32) : F32 :=
  if isNaN x || isNaN y then qNaN
  else if (isInf x && isInf y) || (fMag x == 0 && fMag y == 0) then qNaN
  else if isInf x || fMag y == 0 then fPack (fSign x != fSign y) infMag
  else if isInf y then fPack (fSign x != fSign y) 0
  else fPack (fSign x != fSign y) (roundMag (fixMag (fMag x) * 2 ^ 149) (fixMag (fMag y)))

/-- `float(n)` (R16, R19), also of a negative n, which R510 needs. DEDUCED, unsafe: log entry 10. -/
def fOfInt (n : Int) : F32 := fPack (decide (n < 0)) (roundMag (n.natAbs * 2 ^ 149) 1)

/-- `float(n)` of an unsigned integer. -/
def fOfNat (n : Nat) : F32 := fOfInt n

/-- `floor(x)` of a finite non-negative x (R19). -/
def fFloor (x : F32) : Nat := fixMag (fMag x) / 2 ^ 149

/-! The constants the rules write in decimal. -/

def f0 : F32 := 0x00000000#32
def fHalf : F32 := 0x3F000000#32
def f1 : F32 := 0x3F800000#32
def f2 : F32 := 0x40000000#32
def f3 : F32 := 0x40400000#32
def f4 : F32 := 0x40800000#32
def f12 : F32 := 0x41400000#32
def f24 : F32 := 0x41C00000#32
def f48 : F32 := 0x42400000#32
def f60 : F32 := 0x42700000#32
def f120 : F32 := 0x42F00000#32
def f127 : F32 := 0x42FE0000#32
def f440 : F32 := 0x43DC0000#32
def f8000 : F32 := 0x45FA0000#32
def f48000 : F32 := 0x473B8000#32
def f192000 : F32 := 0x483B8000#32
/-- −0.1. -/
def fNegTenth : F32 := 0xBDCCCCCD#32
def fNeg1 : F32 := 0xBF800000#32
def fNeg24 : F32 := 0xC1C00000#32
def fNeg30 : F32 := 0xC1F00000#32
def fNeg48 : F32 := 0xC2400000#32
def fNeg60 : F32 := 0xC2700000#32
def fNeg96 : F32 := 0xC2C00000#32
def fNeg127 : F32 := 0xC2FE0000#32
/-- The largest finite value, 3.4028235e38 (R21). -/
def fMaxFinite : F32 := 0x7F7FFFFF#32
/-- T_MIN = 1.0e-6 s (R22). -/
def tMin : F32 := 0x358637BD#32
/-- T_MAX = 60.0 s (R22). -/
def tMax : F32 := f60
/-- INC_MAX = 1 − 2^−24, the largest value below 1.0 (R540, R143). -/
def incMax : F32 := 0x3F7FFFFF#32
/-- CUTOFF_COEF_MAX = 0.8 (R612). -/
def coefMax : F32 := 0x3F4CCCCD#32
/-- 0.01 s, the reset value of FAST_R_TIME (R130). -/
def fCentisecond : F32 := 0x3C23D70A#32

end Sys2Proof.Machine
end

