-- ==== Sys2Proof/Machine/Operands.lean ====
section
/-! DEFINITION. Operand forms: the clamps and filters a rule applies to a value before it is stored
or used (00_scope.md R21, R22, R26; 40_envelope.md R404; 30_encoding.md R314). -/

namespace Sys2Proof.Machine

/-- `CLAMP(x, lo, hi)`: lo if x is NaN or below it, hi if above, x otherwise (R21). -/
def clamp (x lo hi : F32) : F32 :=
  if isNaN x || fLt x lo then lo else if fLt hi x then hi else x

/-- `FINITE(x)`: NaN becomes +0.0 and an infinity the largest finite value of its sign (R21). -/
def finite (x : F32) : F32 :=
  if isNaN x then f0 else if isInf x then fPack (fSign x) (fMag fMaxFinite) else x

/-- `UCLAMP(n, lo, hi)` on unsigned integers (R21). -/
def uclamp (n lo hi : Word) : Word := if n < lo then lo else if hi < n then hi else n

/-- `CLAMPT(t) = CLAMP(t, T_MIN, T_MAX)` (R22). -/
def clampT (t : F32) : F32 := clamp t tMin tMax

/-- The denormal threshold 2^−126, the smallest normal value (R26). -/
def dnThresh : F32 := 0x00800000#32

/-- `DN(x)`: +0.0 if abs(x) < DN_THRESH, and x otherwise (R26). -/
def dn (x : F32) : F32 := if fMag x < fMag dnThresh then f0 else x

/-- `INC(CNT)` saturates at 0xFFFF_FFFF (R404). -/
def satInc (c : Word) : Word := if c < 0xFFFFFFFF#32 then c + 1#32 else c

end Sys2Proof.Machine
end

