-- ==== Sys2Proof/Config/Witness.lean ====
section
/-! DEFINITION. Functions with the properties of 00_scope.md R24 exist.

An opaque constant of the type `Config.Functions` needs that type to be inhabited. These functions
serve that purpose alone: the engine's functions are the opaque constant, not these. -/

namespace Sys2Proof.Config

open Sys2Proof.Machine

/-- An order-preserving map of patterns onto positive patterns; two neighbours may share a result. -/
def witnessDbToLin (x : F32) : F32 :=
  if isNaN x then f0 else BitVec.ofNat 32 ((0x3F800000 : Int) + fOrd x / 2).toNat

/-- The inverse of `witnessDbToLin` up to one unit in the last place. -/
def witnessLinToDb (y : F32) : F32 :=
  if 0x3F800000 ≤ fMag y then fPack false (min (2 * (fMag y - 0x3F800000)) infMag)
  else fPack true (2 * (0x3F800000 - fMag y))

theorem fMag_lt (x : F32) : fMag x < 2 ^ 31 := Nat.mod_lt _ (by decide)

theorem fLe_iff (x y : F32) :
    fLe x y = true ↔ isNaN x = false ∧ isNaN y = false ∧ fOrd x ≤ fOrd y := by
  simp [fLe, and_assoc]

theorem fLt_iff (x y : F32) :
    fLt x y = true ↔ isNaN x = false ∧ isNaN y = false ∧ fOrd x < fOrd y := by
  simp [fLt, and_assoc]

theorem isNaN_false_iff (x : F32) : isNaN x = false ↔ fMag x ≤ 0x7F800000 := by
  rw [isNaN, decide_eq_false_iff_not, infMag]; omega

/-- A pattern below 2^31 is non-negative: its magnitude and its order are the number itself. -/
theorem fMag_ofNat {n : Nat} (h : n < 2 ^ 31) : fMag (BitVec.ofNat 32 n) = n := by
  simp [fMag]; omega

theorem fOrd_ofNat {n : Nat} (h : n < 2 ^ 31) : fOrd (BitVec.ofNat 32 n) = n := by
  have hs : fSign (BitVec.ofNat 32 n) = false := by simp [fSign]; omega
  rw [fOrd, hs, fMag_ofNat h]; simp

theorem fOrd_bounds (x : F32) (h : isNaN x = false) :
    -0x7F800000 ≤ fOrd x ∧ fOrd x ≤ 0x7F800000 := by
  have := (isNaN_false_iff x).1 h
  unfold fOrd; split <;> omega

theorem fMag_eq_natAbs (x : F32) : fMag x = (fOrd x).natAbs := by
  unfold fOrd; split <;> omega

theorem fPack_false {n : Nat} : fPack false n = BitVec.ofNat 32 n := by simp [fPack]

theorem fMag_pack_true {n : Nat} (h : n < 2 ^ 31) : fMag (fPack true n) = n := by
  simp [fMag, fPack]; omega

theorem fOrd_pack_true {n : Nat} (h : n < 2 ^ 31) : fOrd (fPack true n) = -(n : Int) := by
  have hs : fSign (fPack true n) = true := by simp [fSign, fPack]; omega
  rw [fOrd, hs, fMag_pack_true h]; simp

/-- The witness on non-NaN arguments: its result is the number `0x3F800000 + ord / 2`, cut at 0. -/
theorem witnessDbToLin_spec (x : F32) (h : isNaN x = false) :
    fOrd (witnessDbToLin x) = ((0x3F800000 : Int) + fOrd x / 2).toNat ∧
    fMag (witnessDbToLin x) = ((0x3F800000 : Int) + fOrd x / 2).toNat ∧
    isNaN (witnessDbToLin x) = false := by
  have hb := fOrd_bounds x h
  have hlt : ((0x3F800000 : Int) + fOrd x / 2).toNat < 2 ^ 31 := by omega
  simp only [witnessDbToLin, h, Bool.false_eq_true, if_false]
  refine ⟨fOrd_ofNat hlt, fMag_ofNat hlt, ?_⟩
  rw [isNaN_false_iff, fMag_ofNat hlt]; omega

theorem witness_noteToHz (n : F32) (_ : fLe f0 n) (_ : fLe n f127) :
    isFinite f440 ∧ fLt f0 f440 := by decide

theorem witness_dbToLin_mono (x y : F32) (h : fLe x y) :
    fLe (witnessDbToLin x) (witnessDbToLin y) := by
  obtain ⟨hx, hy, hxy⟩ := (fLe_iff x y).1 h
  obtain ⟨ox, -, nx⟩ := witnessDbToLin_spec x hx
  obtain ⟨oy, -, ny⟩ := witnessDbToLin_spec y hy
  refine (fLe_iff _ _).2 ⟨nx, ny, ?_⟩
  rw [ox, oy]; omega

theorem witness_dbToLin_le_one (x : F32) (h : fLe x f0) : fLe (witnessDbToLin x) f1 := by
  obtain ⟨hx, -, hxy⟩ := (fLe_iff _ _).1 h
  obtain ⟨ox, -, nx⟩ := witnessDbToLin_spec x hx
  have h0 : fOrd f0 = 0 := by decide
  have h1 : fOrd f1 = 0x3F800000 := by decide
  refine (fLe_iff _ _).2 ⟨nx, by decide, ?_⟩
  rw [ox, h1]; omega

theorem witness_dbToLin_open_unit (x : F32) (ha : fLe fNeg96 x) (hb : fLe x fNegTenth) :
    fLt f0 (witnessDbToLin x) ∧ fLt (witnessDbToLin x) f1 := by
  obtain ⟨-, hx, hlo⟩ := (fLe_iff _ _).1 ha
  obtain ⟨-, -, hhi⟩ := (fLe_iff _ _).1 hb
  obtain ⟨ox, -, nx⟩ := witnessDbToLin_spec x hx
  have h0 : fOrd f0 = 0 := by decide
  have h1 : fOrd f1 = 0x3F800000 := by decide
  have hn : fOrd fNeg96 = -0x42C00000 := by decide
  have ht : fOrd fNegTenth = -0x3DCCCCCD := by decide
  refine ⟨(fLt_iff _ _).2 ⟨by decide, nx, ?_⟩, (fLt_iff _ _).2 ⟨nx, by decide, ?_⟩⟩
  · rw [ox, h0]; omega
  · rw [ox, h1]; omega

theorem witness_dbToLin_finite_pos (x : F32) (ha : fLe fNeg96 x) (hb : fLe x f24) :
    isFinite (witnessDbToLin x) ∧ fLt f0 (witnessDbToLin x) := by
  obtain ⟨-, hx, hlo⟩ := (fLe_iff _ _).1 ha
  obtain ⟨-, -, hhi⟩ := (fLe_iff _ _).1 hb
  obtain ⟨ox, mx, nx⟩ := witnessDbToLin_spec x hx
  have h0 : fOrd f0 = 0 := by decide
  have hn : fOrd fNeg96 = -0x42C00000 := by decide
  have ht : fOrd f24 = 0x41C00000 := by decide
  refine ⟨?_, (fLt_iff _ _).2 ⟨by decide, nx, ?_⟩⟩
  · simp only [isFinite, infMag, mx, decide_eq_true_eq]; omega
  · rw [ox, h0]; omega

/-- The inverse witness, as a number: twice the distance from the pattern of 1.0. -/
theorem witnessLinToDb_spec (y : F32) (hy : isNaN y = false) (h0 : 0 < fOrd y) :
    fOrd (witnessLinToDb y) = min (2 * (fOrd y - 0x3F800000)) 0x7F800000 ∧
    isNaN (witnessLinToDb y) = false := by
  have hb := fOrd_bounds y hy
  have hm := fMag_eq_natAbs y
  unfold witnessLinToDb infMag
  split
  · have hlt : min (2 * (fMag y - 0x3F800000)) 0x7F800000 < 2 ^ 31 := by omega
    rw [fPack_false, isNaN_false_iff, fMag_ofNat hlt, fOrd_ofNat hlt]
    omega
  · have hlt : 2 * (0x3F800000 - fMag y) < 2 ^ 31 := by omega
    rw [isNaN_false_iff, fMag_pack_true hlt, fOrd_pack_true hlt]
    omega

theorem witness_linToDb_mono (x y : F32) (h0 : fLt f0 x) (h : fLe x y) :
    fLe (witnessLinToDb x) (witnessLinToDb y) := by
  obtain ⟨hx, hy, hxy⟩ := (fLe_iff x y).1 h
  have hpos : 0 < fOrd x := ((fLt_iff _ _).1 h0).2.2
  obtain ⟨ox, nx⟩ := witnessLinToDb_spec x hx hpos
  obtain ⟨oy, ny⟩ := witnessLinToDb_spec y hy (by omega)
  refine (fLe_iff _ _).2 ⟨nx, ny, ?_⟩
  rw [ox, oy]; omega

theorem witness_linToDb_one : witnessLinToDb f1 = f0 := by decide

theorem witness_dbToLin_zero : witnessDbToLin f0 = f1 := by decide

/-- Neighbouring magnitudes up to 96.0 differ by at most 2^132 units of 2^-149. -/
theorem fixMag_succ_le (m : Nat) (h : m + 1 ≤ 0x42C00000) :
    fixMag m ≤ fixMag (m + 1) ∧ fixMag (m + 1) ≤ fixMag m + 2 ^ 132 := by
  unfold fixMag
  by_cases h1 : m + 1 < 2 ^ 23
  · have : m < 2 ^ 23 := by omega
    simp only [h1, this, if_true]; omega
  by_cases h2 : m < 2 ^ 23
  · have : m + 1 = 2 ^ 23 := by omega
    have hm : m = 2 ^ 23 - 1 := by omega
    subst hm; decide
  simp only [h1, h2, if_false]
  obtain ⟨q, r, hr, rfl⟩ : ∃ q r, r < 2 ^ 23 ∧ m = 2 ^ 23 * q + r :=
    ⟨m / 2 ^ 23, m % 2 ^ 23, Nat.mod_lt _ (by decide), (Nat.div_add_mod _ _).symm⟩
  have hq : 1 ≤ q := by omega
  have hq2 : q ≤ 133 := by omega
  have d0 : (2 ^ 23 * q + r) / 2 ^ 23 = q := by omega
  have m0 : (2 ^ 23 * q + r) % 2 ^ 23 = r := by omega
  rw [d0, m0]
  obtain ⟨k, rfl⟩ : ∃ k, q = k + 1 := ⟨q - 1, by omega⟩
  have hp : 2 ^ k ≤ 2 ^ 132 := Nat.pow_le_pow_right (by decide) (by omega)
  by_cases hr1 : r + 1 < 2 ^ 23
  · have d1 : (2 ^ 23 * (k + 1) + r + 1) / 2 ^ 23 = k + 1 := by omega
    have m1 : (2 ^ 23 * (k + 1) + r + 1) % 2 ^ 23 = r + 1 := by omega
    rw [d1, m1]
    simp only [Nat.add_sub_cancel]
    have : (2 ^ 23 + (r + 1)) * 2 ^ k = (2 ^ 23 + r) * 2 ^ k + 2 ^ k := by ring
    rw [this]
    exact ⟨Nat.le_add_right _ _, Nat.add_le_add_left hp _⟩
  · have d1 : (2 ^ 23 * (k + 1) + r + 1) / 2 ^ 23 = k + 1 + 1 := by omega
    have m1 : (2 ^ 23 * (k + 1) + r + 1) % 2 ^ 23 = 0 := by omega
    rw [d1, m1]
    have hr2 : r = 2 ^ 23 - 1 := by omega
    subst hr2
    simp only [Nat.add_sub_cancel]
    have : (2 ^ 23 + 0) * 2 ^ (k + 1) = (2 ^ 23 + (2 ^ 23 - 1)) * 2 ^ k + 2 ^ k := by
      rw [Nat.pow_succ]; omega
    rw [this]
    exact ⟨Nat.le_add_right _ _, Nat.add_le_add_left hp _⟩

theorem fix_of_ord (x : F32) : fix x = if fOrd x < 0 then -(fixMag (fOrd x).natAbs : Int) else fixMag (fOrd x).natAbs := by
  rw [← fMag_eq_natAbs]
  unfold fix fOrd
  by_cases hs : fSign x
  · simp only [hs, if_true]
    by_cases hm : fMag x = 0
    · simp [hm, fixMag]
    · rw [if_pos (by omega)]
  · simp only [hs, Bool.false_eq_true, if_false]
    rw [if_neg (by omega)]

theorem witness_round_trip (x : F32) (ha : fLe fNeg96 x) (hb : fLe x f24) :
    isFinite (witnessLinToDb (witnessDbToLin x)) ∧
    (fix (witnessLinToDb (witnessDbToLin x)) - fix x).natAbs * 100 ≤ 2 ^ 149 := by
  obtain ⟨-, hx, hlo⟩ := (fLe_iff _ _).1 ha
  obtain ⟨-, -, hhi⟩ := (fLe_iff _ _).1 hb
  have hn : fOrd fNeg96 = -0x42C00000 := by decide
  have ht : fOrd f24 = 0x41C00000 := by decide
  rw [hn] at hlo; rw [ht] at hhi
  obtain ⟨o1, -, n1⟩ := witnessDbToLin_spec x hx
  obtain ⟨o2, -⟩ := witnessLinToDb_spec _ n1 (by omega)
  have e : fOrd (witnessLinToDb (witnessDbToLin x)) = 2 * (fOrd x / 2) := by omega
  refine ⟨?_, ?_⟩
  · simp only [isFinite, infMag, decide_eq_true_eq, fMag_eq_natAbs, e]; omega
  rw [fix_of_ord, fix_of_ord x, e]
  generalize fOrd x = k at *
  rcases Int.emod_two_eq k with h2 | h2
  · have : 2 * (k / 2) = k := by omega
    rw [this, sub_self]; simp
  have hk : 2 * (k / 2) = k - 1 := by omega
  rw [hk]
  by_cases hneg : k < 0
  · obtain ⟨m, rfl⟩ : ∃ m : Nat, k = -(m : Int) := ⟨k.natAbs, by omega⟩
    have hs := fixMag_succ_le m (by omega)
    rw [if_pos hneg, if_pos (by omega)]
    have a1 : (-(m : Int)).natAbs = m := by omega
    have a2 : (-(m : Int) - 1).natAbs = m + 1 := by omega
    rw [a1, a2]; omega
  · obtain ⟨m, rfl⟩ : ∃ m : Nat, k = (m : Int) + 1 := ⟨(k - 1).natAbs, by omega⟩
    have hs := fixMag_succ_le m (by omega)
    rw [if_neg hneg, if_neg (by omega)]
    have a1 : ((m : Int) + 1).natAbs = m + 1 := by omega
    have a2 : ((m : Int) + 1 - 1).natAbs = m := by omega
    rw [a1, a2]; omega

end Sys2Proof.Config
end

