-- ==== Sys2Proof/Config.lean ====
section
/-! DEFINITION. What an implementation fixes (00_scope.md R9, R10, R12, R24, R26) and the free values
the spec leaves open (10_state.md R135).

The seven sizes are the values "this hardware takes" (R9; DEDUCED, safe: log entry 1). The five numeric functions of R24 are ONE
opaque constant: nothing can compute them, and all that can be proved of them is the list of
properties R24 requires, which their type carries (DEDUCED, safe: log entry 2). -/

namespace Sys2Proof.Config

open Sys2Proof.Machine

/-! Implementation parameters (R9) and fixed counts (R10). -/

abbrev NVOICE : Nat := 16
abbrev NUNI_MAX : Nat := 7
abbrev NSLOT : Nat := 4
abbrev NCTRL : Nat := 3
abbrev MAX_BLOCK : Nat := 4096
abbrev EVQ_CAP : Nat := 512
abbrev WT_LEN : Nat := 1024
abbrev NOSC : Nat := 2
abbrev NENV : Nat := 6
abbrev NSRC : Nat := 9
abbrev NSEC : Nat := 3
abbrev NMACRO : Nat := 4
abbrev NCC : Nat := 128

/-- Destinations of the modulation matrix: (slot, control) pairs (R700). -/
abbrev NDEST : Nat := NSLOT * NCTRL

/-- Routes of the modulation matrix: (slot, control, source) triples (R132, R146). -/
abbrev NROUTE : Nat := NSLOT * NCTRL * NSRC

/-- The five numeric configuration functions with the properties R24 requires of them, and no others.
`=` on a result is equality of patterns; order is the IEEE order of R19. -/
structure Functions where
  noteToHz : F32 → F32 := fun _ => f440
  dbToLin : F32 → F32 := witnessDbToLin
  linToDb : F32 → F32 := witnessLinToDb
  sine : F32 → F32 := fun _ => f0
  cutoffCoef : F32 → F32 → F32 := fun _ _ => f0
  noteToHz_finite_pos : ∀ n, fLe f0 n → fLe n f127 → isFinite (noteToHz n) ∧ fLt f0 (noteToHz n) := by
    exact witness_noteToHz
  noteToHz_mono : ∀ m n, fLe f0 m → fLe m n → fLe n f127 → fLe (noteToHz m) (noteToHz n) := by
    exact fun _ _ _ _ _ => by decide
  noteToHz_a4 : noteToHz 0x428A0000#32 = f440 := by exact rfl
  dbToLin_mono : ∀ x y, fLe x y → fLe (dbToLin x) (dbToLin y) := by exact witness_dbToLin_mono
  dbToLin_zero : dbToLin f0 = f1 := by exact witness_dbToLin_zero
  dbToLin_le_one : ∀ x, fLe x f0 → fLe (dbToLin x) f1 := by exact witness_dbToLin_le_one
  dbToLin_open_unit : ∀ x, fLe fNeg96 x → fLe x fNegTenth →
    fLt f0 (dbToLin x) ∧ fLt (dbToLin x) f1 := by exact witness_dbToLin_open_unit
  dbToLin_finite_pos : ∀ x, fLe fNeg96 x → fLe x f24 →
    isFinite (dbToLin x) ∧ fLt f0 (dbToLin x) := by exact witness_dbToLin_finite_pos
  linToDb_mono : ∀ x y, fLt f0 x → fLe x y → fLe (linToDb x) (linToDb y) := by
    exact witness_linToDb_mono
  linToDb_one : linToDb f1 = f0 := by exact witness_linToDb_one
  round_trip : ∀ x, fLe fNeg96 x → fLe x f24 →
    isFinite (linToDb (dbToLin x)) ∧ (fix (linToDb (dbToLin x)) - fix x).natAbs * 100 ≤ 2 ^ 149 := by
    exact witness_round_trip
  sine_range : ∀ p, fLe f0 p → fLt p f1 → fLe fNeg1 (sine p) ∧ fLe (sine p) f1 := by
    exact fun _ _ _ => by decide
  sine_zero : sine f0 = f0 := by exact rfl
  cutoffCoef_nonneg : ∀ hz fs, fLe f0 hz → fLt f0 fs → fLe f0 (cutoffCoef hz fs) := by
    exact fun _ _ _ _ => by decide
  cutoffCoef_mono : ∀ hz hz' fs, fLe f0 hz → fLe hz hz' → fLt f0 fs →
    fLe (cutoffCoef hz fs) (cutoffCoef hz' fs) := by exact fun _ _ _ _ _ _ => by decide
  cutoffCoef_not_nan : ∀ hz fs, isFinite hz → isFinite fs → isNaN (cutoffCoef hz fs) = false := by
    exact fun _ _ _ _ => by decide
deriving Inhabited

/-- The engine's five functions: any that have the properties of R24 (a free value of the configuration). -/
opaque functions : Functions

/-! The five functions under the names the rules use (R24). -/

/-- NOTE_TO_HZ(n). -/
abbrev noteToHz (n : F32) : F32 := functions.noteToHz n
/-- DB_TO_LIN(x). -/
abbrev dbToLin (x : F32) : F32 := functions.dbToLin x
/-- LIN_TO_DB(y). -/
abbrev linToDb (y : F32) : F32 := functions.linToDb y
/-- SINE(p). -/
abbrev sine (p : F32) : F32 := functions.sine p
/-- CUTOFF_COEF(hz, fs). -/
abbrev cutoffCoef (hz fs : F32) : F32 := functions.cutoffCoef hz fs

/-! Free values. -/

/-- What RAM byte `addr` holds after the `epoch`-th reset until it is written (R135, R1000): an
arbitrary byte. A later reset leaves another arbitrary byte, which the epoch distinguishes. DESIGN CHOICE, safe:
log entry 5. -/
opaque powerOnByte (epoch addr : Nat) : Byte

end Sys2Proof.Config
end

