-- ==== Sys2Proof/Syntax.lean ====
section
/-! DEFINITION. The instructions of the engine: the commands a host writes to CMD (30_encoding.md
R310-R315) and the events the scheduler reads from its two queues (R320-R322), one constructor per
row of spec/opcode_table.json.

A command keeps its VOICE and UNIT fields as the bits of its word: a value out of range is a legal word
that raises BAD_VOICE or BAD_UNIT when it executes (R301 steps 5 and 6). An event keeps TICK, TARGET
and VALUE as the bits of its entry (R320). -/

namespace Sys2Proof

/-- The two event queues (R320). -/
inductive Queue where
  /-- MQ, at 0x2000. -/
  | midi
  /-- AQ, at 0x3000. -/
  | automation
deriving DecidableEq, Repr

inductive Instr where
  /-- 0x01 NOP (R840). -/
  | nop
  /-- 0x02 RUN (R801). -/
  | run
  /-- 0x03 PANIC (R841). -/
  | panic
  /-- 0x04 ALL_NOTES_OFF (R842). -/
  | allNotesOff
  /-- 0x05 ERR_CLEAR (R844). -/
  | errClear
  /-- 0x06 NOTE_ON (R830). -/
  | noteOn (voice : BitVec 8) (unit : BitVec 4)
  /-- 0x07 NOTE_OFF (R832); IMM[0] = FAST. -/
  | noteOff (voice : BitVec 8) (unit : BitVec 4) (fast : Bool)
  /-- 0x10 ENV_RETRIGGER (R420). -/
  | envRetrigger (voice : BitVec 8) (unit : BitVec 4)
  /-- 0x11 ENV_RELEASE (R422). -/
  | envRelease (voice : BitVec 8) (unit : BitVec 4)
  /-- 0x12 ENV_FAST_RELEASE (R423). -/
  | envFastRelease (voice : BitVec 8) (unit : BitVec 4)
  /-- 0x13 ENV_KILL (R424). -/
  | envKill (voice : BitVec 8) (unit : BitVec 4)
  /-- 0x14 ENV_SET_TIMES (R410); IMM[0] = MODE. -/
  | envSetTimes (voice : BitVec 8) (unit : BitVec 4) (mode : Bool)
  /-- 0x15 ENV_STEP (R430). -/
  | envStep (voice : BitVec 8) (unit : BitVec 4)
  /-- 0x16 ENV_TRIGGER_DELAYED (R421). -/
  | envTriggerDelayed (voice : BitVec 8) (unit : BitVec 4)
  /-- 0x17 ENV_SET_DELAY_HOLD (R412). -/
  | envSetDelayHold (voice : BitVec 8) (unit : BitVec 4)
  /-- 0x20 OSC_SET_UNISON_PITCH (R510). -/
  | oscSetUnisonPitch (voice : BitVec 8) (unit : BitVec 4)
  /-- 0x21 OSC_STEP (R540). -/
  | oscStep (voice : BitVec 8) (unit : BitVec 4)
  /-- 0x22 OSC_RESET (R545). -/
  | oscReset (voice : BitVec 8) (unit : BitVec 4)
  /-- 0x23 OSC_FM_MIX (R560). -/
  | oscFmMix (voice : BitVec 8) (unit : BitVec 4)
  /-- 0x30 FLT_SET_CUTOFF_BASE (R610). -/
  | fltSetCutoffBase (voice : BitVec 8) (unit : BitVec 4)
  /-- 0x31 FLT_ADD_CUTOFF_MOD (R611). -/
  | fltAddCutoffMod (voice : BitVec 8) (unit : BitVec 4)
  /-- 0x32 FLT_SET_CUTOFF (R612). -/
  | fltSetCutoff (voice : BitVec 8) (unit : BitVec 4)
  /-- 0x33 FLT_SET_RESONANCE (R615). -/
  | fltSetResonance (voice : BitVec 8) (unit : BitVec 4)
  /-- 0x34 FLT_STEP (R630). -/
  | fltStep (voice : BitVec 8) (unit : BitVec 4)
  /-- 0x35 FLT_RESET (R640). -/
  | fltReset (voice : BitVec 8) (unit : BitVec 4)
  /-- 0x40 MM_COMPACT (R710). -/
  | mmCompact (voice : BitVec 8) (unit : BitVec 4)
  /-- 0x41 MM_APPLY (R720). -/
  | mmApply (voice : BitVec 8) (unit : BitVec 4)
  /-- MQ type 1, NOTE_ON event (R821). -/
  | evNoteOn (tick : BitVec 12) (target : BitVec 16) (value : Word)
  /-- MQ type 2, NOTE_OFF event (R822). -/
  | evNoteOff (tick : BitVec 12) (target : BitVec 16) (value : Word)
  /-- MQ type 3, CONTROLLER event (R823). -/
  | evControllerM (tick : BitVec 12) (target : BitVec 16) (value : Word)
  /-- MQ type 4, PITCH_BEND event (R825). -/
  | evPitchBend (tick : BitVec 12) (target : BitVec 16) (value : Word)
  /-- AQ type 3, automation CONTROLLER event (R824). -/
  | evAutomation (tick : BitVec 12) (target : BitVec 16) (value : Word)
deriving DecidableEq, Repr

end Sys2Proof
end

