-- ==== Sys2Proof/Decode.lean ====
section
/-! DEFINITION. Decoding of command words (30_encoding.md R301 steps 2 and 3, R310-R316) and of event
entries (R320, R321), and the encoder.

A decoder is total: on a word that is no instruction it answers by name why (`Reject`), and the
caller raises the fault the spec gives that name. -/

namespace Sys2Proof

/-- Why bits are no instruction. -/
inductive Reject where
  /-- The opcode is not in R315: ILLEGAL_COMMAND (R301 step 2, R316). -/
  | unknownOpcode
  /-- A reserved bit is 1: ILLEGAL_COMMAND (R301 step 3, R312). -/
  | reservedBit
  /-- The queue does not accept the TYPE: BAD_EVENT_TYPE (R321). -/
  | badEventType
deriving DecidableEq, Repr

/-! ### Command words -/

/-- The command word with the given fields (R310). -/
def commandWord (op : BitVec 8) (voice : BitVec 8) (unit : BitVec 4) (imm : BitVec 12) : Word :=
  ((op ++ voice) ++ unit) ++ imm

/-- OP, bits [31:24]. -/
def opOf (c : Word) : BitVec 8 := c.extractLsb' 24 8
/-- VOICE, bits [23:16]. -/
def voiceOf (c : Word) : BitVec 8 := c.extractLsb' 16 8
/-- UNIT, bits [15:12]. -/
def unitOf (c : Word) : BitVec 4 := c.extractLsb' 12 4
/-- IMM, bits [11:0]. -/
def immOf (c : Word) : BitVec 12 := c.extractLsb' 0 12

/-- A format G word: bits [23:0] are reserved (R312). -/
def formatG (c : Word) (i : Instr) : Except Reject Instr :=
  if c.extractLsb' 0 24 = 0#24 then .ok i else .error .reservedBit

/-- A format VU word whose command uses no IMM bit (R312, R313). -/
def formatVU (c : Word) (f : BitVec 8 → BitVec 4 → Instr) : Except Reject Instr :=
  if immOf c = 0#12 then .ok (f (voiceOf c) (unitOf c)) else .error .reservedBit

/-- A format VU word whose command uses IMM[0] as a flag (R313). -/
def formatVUFlag (c : Word) (f : BitVec 8 → BitVec 4 → Bool → Instr) : Except Reject Instr :=
  if c.extractLsb' 1 11 = 0#11 then .ok (f (voiceOf c) (unitOf c) (c.getLsbD 0))
  else .error .reservedBit

/-- The opcode map of R315. -/
def decodeCommand (c : Word) : Except Reject Instr :=
  match (opOf c).toNat with
  | 0x01 => formatG c .nop
  | 0x02 => formatG c .run
  | 0x03 => formatG c .panic
  | 0x04 => formatG c .allNotesOff
  | 0x05 => formatG c .errClear
  | 0x06 => formatVU c .noteOn
  | 0x07 => formatVUFlag c .noteOff
  | 0x10 => formatVU c .envRetrigger
  | 0x11 => formatVU c .envRelease
  | 0x12 => formatVU c .envFastRelease
  | 0x13 => formatVU c .envKill
  | 0x14 => formatVUFlag c .envSetTimes
  | 0x15 => formatVU c .envStep
  | 0x16 => formatVU c .envTriggerDelayed
  | 0x17 => formatVU c .envSetDelayHold
  | 0x20 => formatVU c .oscSetUnisonPitch
  | 0x21 => formatVU c .oscStep
  | 0x22 => formatVU c .oscReset
  | 0x23 => formatVU c .oscFmMix
  | 0x30 => formatVU c .fltSetCutoffBase
  | 0x31 => formatVU c .fltAddCutoffMod
  | 0x32 => formatVU c .fltSetCutoff
  | 0x33 => formatVU c .fltSetResonance
  | 0x34 => formatVU c .fltStep
  | 0x35 => formatVU c .fltReset
  | 0x40 => formatVU c .mmCompact
  | 0x41 => formatVU c .mmApply
  | _ => .error .unknownOpcode

/-! ### Event entries -/

/-- Word 0 of the entry with the given fields (R320). -/
def eventWord (type : BitVec 4) (tick : BitVec 12) (target : BitVec 16) : Word :=
  (type ++ tick) ++ target

/-- TYPE, word0[31:28]. -/
def typeOf (w0 : Word) : BitVec 4 := w0.extractLsb' 28 4
/-- TICK, word0[27:16]. -/
def tickOf (w0 : Word) : BitVec 12 := w0.extractLsb' 16 12
/-- TARGET, word0[15:0]. -/
def targetOf (w0 : Word) : BitVec 16 := w0.extractLsb' 0 16

/-- The entry (word0, word1) of queue `q` (R321): MQ accepts types 1-4, AQ only type 3. -/
def decodeEvent (q : Queue) (w0 w1 : Word) : Except Reject Instr :=
  match q, (typeOf w0).toNat with
  | .midi, 1 => .ok (.evNoteOn (tickOf w0) (targetOf w0) w1)
  | .midi, 2 => .ok (.evNoteOff (tickOf w0) (targetOf w0) w1)
  | .midi, 3 => .ok (.evControllerM (tickOf w0) (targetOf w0) w1)
  | .midi, 4 => .ok (.evPitchBend (tickOf w0) (targetOf w0) w1)
  | .automation, 3 => .ok (.evAutomation (tickOf w0) (targetOf w0) w1)
  | _, _ => .error .badEventType

/-! ### Where an instruction's words are read, and one decoder over both -/

/-- The two places instructions are read from: the CMD register and an event queue (R301, R320). -/
inductive Port where
  | cmd
  | queue (q : Queue)
deriving DecidableEq, Repr

/-- The instruction the words at a port are. A command is one word, an event entry two (R300). -/
def decode : Port → List Word → Except Reject Instr
  | .cmd, [c] => decodeCommand c
  | .queue q, [w0, w1] => decodeEvent q w0 w1
  | _, _ => .error .unknownOpcode

/-- The port an instruction is read from. -/
def portOf : Instr → Port
  | .evNoteOn .. | .evNoteOff .. | .evControllerM .. | .evPitchBend .. => .queue .midi
  | .evAutomation .. => .queue .automation
  | _ => .cmd

/-- A flag in IMM[0] (R313). -/
def immFlag (b : Bool) : BitVec 12 := if b then 1#12 else 0#12

/-- The words of an instruction: the word written to CMD, or the two words of the queue entry. -/
def encode : Instr → List Word
  | .nop => [commandWord 0x01#8 0#8 0#4 0#12]
  | .run => [commandWord 0x02#8 0#8 0#4 0#12]
  | .panic => [commandWord 0x03#8 0#8 0#4 0#12]
  | .allNotesOff => [commandWord 0x04#8 0#8 0#4 0#12]
  | .errClear => [commandWord 0x05#8 0#8 0#4 0#12]
  | .noteOn v u => [commandWord 0x06#8 v u 0#12]
  | .noteOff v u fast => [commandWord 0x07#8 v u (immFlag fast)]
  | .envRetrigger v u => [commandWord 0x10#8 v u 0#12]
  | .envRelease v u => [commandWord 0x11#8 v u 0#12]
  | .envFastRelease v u => [commandWord 0x12#8 v u 0#12]
  | .envKill v u => [commandWord 0x13#8 v u 0#12]
  | .envSetTimes v u mode => [commandWord 0x14#8 v u (immFlag mode)]
  | .envStep v u => [commandWord 0x15#8 v u 0#12]
  | .envTriggerDelayed v u => [commandWord 0x16#8 v u 0#12]
  | .envSetDelayHold v u => [commandWord 0x17#8 v u 0#12]
  | .oscSetUnisonPitch v u => [commandWord 0x20#8 v u 0#12]
  | .oscStep v u => [commandWord 0x21#8 v u 0#12]
  | .oscReset v u => [commandWord 0x22#8 v u 0#12]
  | .oscFmMix v u => [commandWord 0x23#8 v u 0#12]
  | .fltSetCutoffBase v u => [commandWord 0x30#8 v u 0#12]
  | .fltAddCutoffMod v u => [commandWord 0x31#8 v u 0#12]
  | .fltSetCutoff v u => [commandWord 0x32#8 v u 0#12]
  | .fltSetResonance v u => [commandWord 0x33#8 v u 0#12]
  | .fltStep v u => [commandWord 0x34#8 v u 0#12]
  | .fltReset v u => [commandWord 0x35#8 v u 0#12]
  | .mmCompact v u => [commandWord 0x40#8 v u 0#12]
  | .mmApply v u => [commandWord 0x41#8 v u 0#12]
  | .evNoteOn tick target value => [eventWord 1#4 tick target, value]
  | .evNoteOff tick target value => [eventWord 2#4 tick target, value]
  | .evControllerM tick target value => [eventWord 3#4 tick target, value]
  | .evPitchBend tick target value => [eventWord 4#4 tick target, value]
  | .evAutomation tick target value => [eventWord 3#4 tick target, value]

/-- The first word of an instruction: a command's word, which a fault of the command records (R901). -/
def encodeHead (i : Instr) : Word := (encode i).headD 0#32

/-! ### The opcode table's words

A word of the table does not say where it is read: the rows EV_* share their words with commands and
with each other (0x3000_0000 is FLT_SET_CUTOFF_BASE at CMD, CONTROLLER in MQ and an automation event
in AQ). The rule used here, in this order: a word CMD accepts is that command; a type 3 word whose
TARGET is no CC number (R322) is an automation event; a word of TYPE 1-4 is the MQ event of its TYPE;
any other word is no instruction, and is one only CMD can refuse. -/

/-- The port at which a table word is read. DESIGN CHOICE, safe: log entry 8. -/
def tablePort (w0 : Word) : Port :=
  match decodeCommand w0 with
  | .ok _ => .cmd
  | .error _ =>
    if typeOf w0 = 3#4 ∧ Config.NCC ≤ (targetOf w0).toNat then .queue .automation
    else if 1 ≤ (typeOf w0).toNat ∧ (typeOf w0).toNat ≤ 4 then .queue .midi
    else .cmd

/-- Bits [31:0] of an instruction given as a number. -/
def tableWord0 (nbits w : Nat) : Word := BitVec.ofNat 32 (w % 2 ^ nbits)

/-- Bits [63:32] of an instruction given as a number. -/
def tableWord1 (nbits w : Nat) : Word := BitVec.ofNat 32 (w % 2 ^ nbits / 2 ^ 32)

/-- The instruction the decoder reads from an instruction whose bits are `w`. -/
def decodeTableWord (nbits w : Nat) : Option Instr :=
  match tablePort (tableWord0 nbits w) with
  | .cmd => (decode .cmd [tableWord0 nbits w]).toOption
  | .queue q => (decode (.queue q) [tableWord0 nbits w, tableWord1 nbits w]).toOption

end Sys2Proof
end

