-- ==== Sys2Proof/Machine/State.lean ====
section
/-! DEFINITION. The state of the engine as plain data (10_state.md R100-R175; 60_exceptions.md R901), the
reasons a step could stop, and the state after reset (70_reset_and_hazards.md R1000, R1001). -/

namespace Sys2Proof.Machine

open Sys2Proof.Config

/-- Envelope stages, in the order of their codes 0-7 (R400). -/
inductive Stage where
  | delay | attack | hold | decay | sustain | release | wait | off
deriving DecidableEq, Repr

/-- Waveform codes 0-5 of OSC_CFG.WAVE (R127, R520). -/
inductive Waveform where
  | off | sine | saw | square | triangle | wavetable
deriving DecidableEq, Repr

/-- Filter types 0-5 of FLT_CFG.TYPE (R128, R621). -/
inductive FltType where
  | off | lp | hp | bp | notch | eq
deriving DecidableEq, Repr

/-- FLT_CFG.POLES codes 1-3: two, four or six poles, that is one, two or three sections (R128). -/
inductive Poles where
  | two | four | six
deriving DecidableEq, Repr

/-- FLT_CFG.OS codes 0-2: oversampling by 1, 2 or 4 (R128, R631). -/
inductive Oversampling where
  | x1 | x2 | x4
deriving DecidableEq, Repr

/-- Fault causes, in the order of their codes 0-14 (R901). -/
inductive Cause where
  | none | illegalCommand | badVoice | badUnit | cmdBusy | busyWrite | busAlign | busUnmapped
  | badBlockLen | eventOverflow | badEventType | eventTickRange | eventTickOrder | badEventTarget
  | badEventValue
deriving DecidableEq, Repr

/-- Envelope E[v][e] (R142). -/
structure Env where
  stage : Stage
  /-- CTRL[8]: 0 linear, 1 dB. -/
  mode : Bool
  out : F32
  outDb : F32
  cnt : Word
  aInc : F32
  dInc : F32
  rInc : F32
  sLin : F32
  sDb : F32
  aIncDb : F32
  dIncDb : F32
  rIncDb : F32
  delayN : Word
  holdN : Word
  thr : F32
  dbFloor : F32
deriving DecidableEq, Repr

/-- Oscillator O[v][o] (R143). -/
structure Osc where
  out : F32
  /-- FLAGS[0]: lane 0 wrapped in the last step. -/
  wrap : Bool
  syncPh : F32
  fmIn : F32
  phase : Vector F32 NUNI_MAX
  inc : Vector F32 NUNI_MAX
deriving DecidableEq, Repr

/-- Filter section F[v].K[k] (R144). -/
structure Section where
  bp : F32
  bpM1 : F32
  lp : F32
  lpM1 : F32
  hp : F32
deriving DecidableEq, Repr

/-- Filter F[v] (R144). -/
structure Flt where
  base : F32
  mod : F32
  last : F32
  /-- FLAGS[0]: LAST, HZ and COEF hold a computed value. -/
  valid : Bool
  hz : F32
  coef : F32
  res : F32
  sec : Vector Section NSEC
deriving DecidableEq, Repr

/-- One entry of the compacted modulation list V[v].LIST (R145): IDX[7:0], IDX[15:8], IDX[23:16] and DEPTH. -/
structure Route where
  slot : BitVec 8
  control : BitVec 8
  source : BitVec 8
  depth : F32
deriving DecidableEq, Repr

/-- Voice V[v] with its units (R141-R145). -/
structure Voice where
  note : F32
  vel : BitVec 7
  amp : F32
  slots : BitVec NSLOT
  mmCount : Word
  env : Vector Env NENV
  osc : Vector Osc NOSC
  flt : Flt
  live : Vector F32 NDEST
  list : Vector Route NROUTE
deriving DecidableEq, Repr

/-- Envelope patch group of one role (R126). -/
structure EnvPatch where
  attack : F32
  decay : F32
  sustainDb : F32
  release : F32
  delay : Word
  hold : Word
  mode : Bool
deriving DecidableEq, Repr

/-- Oscillator patch group (R127). -/
structure OscPatch where
  wave : Waveform
  uni : BitVec 4
  sync : Bool
  tune : F32
  spread : F32
  gain : F32
  fm0 : F32
  fm1 : F32
deriving DecidableEq, Repr

/-- Filter patch (R128). -/
structure FltPatch where
  type : FltType
  poles : Poles
  os : Oversampling
  cutoff : F32
  resDb : F32
  eqGainDb : F32
  envAmt : F32
deriving DecidableEq, Repr

/-- The patch registers (R125-R130). -/
structure Patch where
  env : Vector EnvPatch NENV
  osc : Vector OscPatch NOSC
  flt : FltPatch
  slotActive : BitVec NSLOT
  mmBase : Vector F32 NDEST
  macroVal : Vector F32 NMACRO
  lfoIn : F32
  fastRTime : F32
  waitSamples : Word
  envDbFloor : F32
deriving DecidableEq, Repr

/-- RAM: the bytes written since reset, by byte address, strictly rising. A byte not listed has not been
written and holds a free value (R135). -/
abbrev Memory := List Host.Cell

/-- One turn in the total order of the agents' steps (R240, R940). The two bus masters have identical
rights and the hardware does not tell them apart, so a turn of either is a bus access. DEDUCED, safe: log
entry 18. -/
inductive Turn where
  /-- MemRead(addr, 4) by a bus master (R201). -/
  | read (addr : Word)
  /-- MemWrite(addr, 4, v) by a bus master (R202). -/
  | write (addr v : Word)
  /-- The render scheduler's turn: the next sample, if a block runs (R805). -/
  | sample
  /-- The reset input is asserted (R1000). -/
  | reset
deriving DecidableEq, Repr

/-- The state of the engine. The last three fields are the model's own. -/
structure State where
  /-- STATUS[0] (R112). -/
  busy : Bool
  /-- STATUS[1] (R112). -/
  fault : Bool
  /-- STATUS[2] (R112). -/
  panicPend : Bool
  arg : Vector Word 4
  result : Word
  errCause : Cause
  errInfo : Word
  errLoc : Word
  /-- [0] DONE, [1] FAULT, [2] WT_SWAPPED (R116). -/
  irqStatus : BitVec 3
  irqEnable : BitVec 3
  sampleRate : F32
  blockLen : Word
  midiCount : Word
  atmCount : Word
  /-- SCHED_I, read as SAMPLE_IDX (R105, R119). -/
  schedI : Word
  mcur : Word
  acur : Word
  lastTickM : Word
  lastTickA : Word
  pitchBend : F32
  /-- WT_CTRL[0], the bank oscillators read (R121, R230). -/
  activeBank : Bool
  /-- WT_CTRL[1] (R121, R233). -/
  swapReq : Bool
  /-- WT_LOCK[0] (R232). -/
  wtLock : Bool
  wtBlen0 : Word
  wtBlen1 : Word
  patch : Patch
  cc : Vector F32 NCC
  depth : Vector F32 NROUTE
  voice : Vector Voice NVOICE
  ram : Memory
  /-- The turns still to come, first first: the accesses the bus masters will make and where they fall
  among the samples (R240, R241). DESIGN CHOICE, safe: log entry 3. -/
  agenda : List Turn
  /-- The word the last MemRead returned (R201). DESIGN CHOICE, unsafe: log entry 4. -/
  busData : Word
  /-- How often the reset input has been asserted: it indexes the free contents of RAM (R135).
  DESIGN CHOICE, safe: log entry 5. -/
  epoch : Nat
deriving DecidableEq, Repr

/-- Why the machine stops for good: never. Every fault of the spec is recorded in ERR_CAUSE and the engine
goes on accepting bus accesses ("A model never stops", R902), so there is no constructor. DEDUCED, safe: log
entry 15. -/
inductive Fault where
deriving DecidableEq, Repr

/-- Why an instruction has no meaning. -/
inductive Refusal where
  /-- Raised by exec for an instruction without a meaning; no arm raises it now. Safe: the machine stops. -/
  | notModelled (mnemonic : String)
deriving DecidableEq, Repr

/-- An envelope after reset (R142, R1001). -/
def Env.reset : Env where
  stage := .off
  mode := false
  out := f0
  outDb := fNeg60
  cnt := 0#32
  aInc := 0x41A6AAAB#32
  dInc := 0x41A6AAAB#32
  rInc := 0x41A6AAAB#32
  sLin := f1
  sDb := f0
  aIncDb := 0x449C4000#32
  dIncDb := 0x449C4000#32
  rIncDb := 0x449C4000#32
  delayN := 0#32
  holdN := 0#32
  thr := dbToLin fNeg60
  dbFloor := fNeg60

/-- An oscillator after reset (R143). -/
def Osc.reset : Osc where
  out := f0
  wrap := false
  syncPh := f0
  fmIn := f0
  phase := Vector.replicate NUNI_MAX f0
  inc := Vector.replicate NUNI_MAX f0

/-- A filter section after reset (R144). -/
def Section.reset : Section where
  bp := f0
  bpM1 := f0
  lp := f0
  lpM1 := f0
  hp := f0

/-- A filter after reset (R144). -/
def Flt.reset : Flt where
  base := f0
  mod := f0
  last := f0
  valid := false
  hz := f0
  coef := f0
  res := f0
  sec := Vector.replicate NSEC Section.reset

/-- A list entry after reset (R145). -/
def Route.reset : Route where
  slot := 0#8
  control := 0#8
  source := 0#8
  depth := f0

/-- A voice after reset (R141-R145, R1001). -/
def Voice.reset : Voice where
  note := f0
  vel := 0#7
  amp := f0
  slots := 0#4
  mmCount := 0#32
  env := Vector.replicate NENV Env.reset
  osc := Vector.replicate NOSC Osc.reset
  flt := Flt.reset
  live := Vector.replicate NDEST f0
  list := Vector.replicate NROUTE Route.reset

/-- An envelope patch group after reset (R126). -/
def EnvPatch.reset : EnvPatch where
  attack := f0
  decay := f0
  sustainDb := f0
  release := f0
  delay := 0#32
  hold := 0#32
  mode := false

/-- An oscillator patch group after reset: oscillator 0 is SAW, oscillator 1 OFF (R127). -/
def OscPatch.reset (wave : Waveform) : OscPatch where
  wave := wave
  uni := 1#4
  sync := false
  tune := f0
  spread := f0
  gain := f1
  fm0 := f0
  fm1 := f0

/-- The filter patch after reset (R128). -/
def FltPatch.reset : FltPatch where
  type := .off
  poles := .two
  os := .x1
  cutoff := f120
  resDb := fNeg30
  eqGainDb := f0
  envAmt := f0

/-- The patch registers after reset (R126-R130). -/
def Patch.reset : Patch where
  env := Vector.replicate NENV EnvPatch.reset
  osc := #v[OscPatch.reset .saw, OscPatch.reset .off]
  flt := FltPatch.reset
  slotActive := 0#4
  mmBase := Vector.replicate NDEST f0
  macroVal := Vector.replicate NMACRO f0
  lfoIn := f0
  fastRTime := fCentisecond
  waitSamples := 16#32
  envDbFloor := fNeg60

/-- The machine right after reset (R1000). RAM lists nothing: every byte of it is free (R135). -/
def State.reset : State where
  busy := false
  fault := false
  panicPend := false
  arg := Vector.replicate 4 0#32
  result := 0#32
  errCause := .none
  errInfo := 0#32
  errLoc := 0#32
  irqStatus := 0#3
  irqEnable := 0#3
  sampleRate := f48000
  blockLen := 0#32
  midiCount := 0#32
  atmCount := 0#32
  schedI := 0#32
  mcur := 0#32
  acur := 0#32
  lastTickM := 0#32
  lastTickA := 0#32
  pitchBend := f0
  activeBank := false
  swapReq := false
  wtLock := false
  wtBlen0 := BitVec.ofNat 32 WT_LEN
  wtBlen1 := BitVec.ofNat 32 WT_LEN
  patch := Patch.reset
  cc := Vector.replicate NCC f0
  depth := Vector.replicate NROUTE f0
  voice := Vector.replicate NVOICE Voice.reset
  ram := []
  agenda := []
  busData := 0#32
  epoch := 0

end Sys2Proof.Machine
end

