-- ==== Sys2Proof/Machine/Flags.lean ====
section
/-! DEFINITION. Codes, flags and computed status words (10_state.md R112-R122, R127, R128, R141-R144, R170;
40_envelope.md R400; 60_exceptions.md R901, R913, R922). The engine has no condition codes (R170). -/

namespace Sys2Proof.Machine

open Sys2Proof.Config

/-- A flag as one bit. -/
def flagBit (b : Bool) : Nat := if b then 1 else 0

/-! ### Field codes -/

/-- STAGE code (R142, R400). -/
def stageCode : Stage → Nat
  | .delay => 0 | .attack => 1 | .hold => 2 | .decay => 3
  | .sustain => 4 | .release => 5 | .wait => 6 | .off => 7

/-- The stage of a three-bit code (R400). -/
def stageOfCode (n : Nat) : Stage :=
  match n with
  | 0 => .delay | 1 => .attack | 2 => .hold | 3 => .decay
  | 4 => .sustain | 5 => .release | 6 => .wait | _ => .off

/-- `STAGE < Release`, in the order of the codes (R400, R422). -/
def beforeRelease (st : Stage) : Bool := decide (stageCode st < stageCode .release)

/-- WAVE code (R127). -/
def waveCode : Waveform → Nat
  | .off => 0 | .sine => 1 | .saw => 2 | .square => 3 | .triangle => 4 | .wavetable => 5

/-- The waveform a written WAVE code stores: 6 and 7 are stored as 5 (R127). -/
def waveOfCode (n : Nat) : Waveform :=
  match n with
  | 0 => .off | 1 => .sine | 2 => .saw | 3 => .square | 4 => .triangle | _ => .wavetable

/-- TYPE code (R128). -/
def fltTypeCode : FltType → Nat
  | .off => 0 | .lp => 1 | .hp => 2 | .bp => 3 | .notch => 4 | .eq => 5

/-- The type a written TYPE code stores: 6 and 7 are stored as 5 (R128). -/
def fltTypeOfCode (n : Nat) : FltType :=
  match n with
  | 0 => .off | 1 => .lp | 2 => .hp | 3 => .bp | 4 => .notch | _ => .eq

/-- POLES code, which is the number of sections (R128, R630). -/
def polesCode : Poles → Nat
  | .two => 1 | .four => 2 | .six => 3

/-- The value a written POLES code stores: 0 is stored as 1 (R128). -/
def polesOfCode (n : Nat) : Poles :=
  match n with
  | 0 => .two | 1 => .two | 2 => .four | _ => .six

/-- OS code (R128). -/
def osCode : Oversampling → Nat
  | .x1 => 0 | .x2 => 1 | .x4 => 2

/-- The value a written OS code stores: 3 is stored as 2 (R128). -/
def osOfCode (n : Nat) : Oversampling :=
  match n with
  | 0 => .x1 | 1 => .x2 | _ => .x4

/-- OSF, the oversampling factor of FLT_CFG.OS (R612, R631). -/
def osFactor : Oversampling → Nat
  | .x1 => 1 | .x2 => 2 | .x4 => 4

/-- The UNI field a written code stores: 0 as 1, values above NUNI_MAX as NUNI_MAX (R127). -/
def uniOfCode (u : BitVec 4) : BitVec 4 :=
  if u = 0#4 then 1#4 else if NUNI_MAX < u.toNat then BitVec.ofNat 4 NUNI_MAX else u

/-- ERR_CAUSE code (R901). -/
def causeCode : Cause → Nat
  | .none => 0 | .illegalCommand => 1 | .badVoice => 2 | .badUnit => 3 | .cmdBusy => 4
  | .busyWrite => 5 | .busAlign => 6 | .busUnmapped => 7 | .badBlockLen => 8
  | .eventOverflow => 9 | .badEventType => 10 | .eventTickRange => 11 | .eventTickOrder => 12
  | .badEventTarget => 13 | .badEventValue => 14

/-! ### Register words composed of fields -/

/-- STATUS: [0] BUSY, [1] FAULT, [2] PANIC_PEND (R112). -/
def statusWord (s : State) : Word :=
  BitVec.ofNat 32 (flagBit s.busy + 2 * flagBit s.fault + 4 * flagBit s.panicPend)

/-- CFG0 (R111). -/
def cfg0Word : Word :=
  BitVec.ofNat 32 (NVOICE + NUNI_MAX * 2 ^ 12 + NSLOT * 2 ^ 16 + NCTRL * 2 ^ 20)

/-- CFG1 (R111). -/
def cfg1Word : Word := BitVec.ofNat 32 (MAX_BLOCK + EVQ_CAP * 2 ^ 16)

/-- CFG2 (R111). -/
def cfg2Word : Word := BitVec.ofNat 32 WT_LEN

/-- WT_CTRL: [0] ACTIVE_BANK, [1] SWAP_REQ (R121). -/
def wtCtrlWord (s : State) : Word := BitVec.ofNat 32 (flagBit s.activeBank + 2 * flagBit s.swapReq)

/-- OSC_CFG: [2:0] WAVE, [7:4] UNI, [8] SYNC (R127). -/
def oscCfgWord (p : OscPatch) : Word :=
  BitVec.ofNat 32 (waveCode p.wave + p.uni.toNat * 2 ^ 4 + flagBit p.sync * 2 ^ 8)

/-- FLT_CFG: [2:0] TYPE, [5:4] POLES, [9:8] OS (R128). -/
def fltCfgWord (p : FltPatch) : Word :=
  BitVec.ofNat 32 (fltTypeCode p.type + polesCode p.poles * 2 ^ 4 + osCode p.os * 2 ^ 8)

/-- E.CTRL: [2:0] STAGE, [8] MODE (R142). -/
def envCtrlWord (E : Env) : Word := BitVec.ofNat 32 (stageCode E.stage + flagBit E.mode * 2 ^ 8)

/-- LIST[i].IDX: [7:0] slot, [15:8] control, [23:16] source (R145). -/
def routeIdxWord (r : Route) : Word := ((0#8 ++ r.source) ++ r.control) ++ r.slot

/-- A voice is active when its amplitude envelope is not Off (R806). -/
def voiceActive (V : Voice) : Bool := decide (V.env[0].stage ≠ .off)

/-- VOICE_FREEw: bit j is 1 iff voice 32w + j exists and is not active (R122). -/
def voiceFreeWord (s : State) (w : Nat) : Word :=
  BitVec.ofNat 32 ((List.finRange NVOICE).foldl
    (fun acc v => if v.val / 32 = w ∧ !voiceActive s.voice[v] then acc + 2 ^ (v.val % 32) else acc) 0)

/-! ### Interrupt flags -/

/-- IRQ_STATUS with bit DONE set (R116, R807). -/
def irqSetDone (b : BitVec 3) : BitVec 3 := b ||| 1#3
/-- IRQ_STATUS with bit FAULT set (R116, R910). -/
def irqSetFault (b : BitVec 3) : BitVec 3 := b ||| 2#3
/-- IRQ_STATUS with bit WT_SWAPPED set (R116, R233). -/
def irqSetSwapped (b : BitVec 3) : BitVec 3 := b ||| 4#3

/-- The interrupt output: any pending and enabled bit (R922). DEDUCED, safe: log entry 13. -/
def irqLine (s : State) : Bool := s.irqStatus &&& s.irqEnable != 0#3

/-! ### ERR_LOC -/

/-- ERR_LOC of a fault raised by a bus access or a command (R913). -/
def accessLoc (s : State) : Word :=
  if s.busy then BitVec.ofNat 32 (2 ^ 31 + s.schedI.toNat % 2 ^ 13 * 2 ^ 16) else 0#32

/-- The queue bit ERR_LOC[13] (R115). -/
def queueBit : Queue → Nat
  | .midi => 0
  | .automation => 1

/-- ERR_LOC of a fault in an event entry: [12:0] entry, [13] queue (R901). -/
def entryLoc (q : Queue) (j : Nat) : Word := BitVec.ofNat 32 (j % 2 ^ 13 + queueBit q * 2 ^ 13)

end Sys2Proof.Machine
end

