-- ==== Sys2Proof/Machine/Ops.lean ====
section
/-! DEFINITION. Named operations over memory and registers, and taking a fault and returning from it
(20_memory.md R205, R206; 60_exceptions.md R910-R915; 30_encoding.md R301; 44_scheduler.md R841). -/

namespace Sys2Proof.Machine

open Sys2Proof.Config

/-! ### Vectors -/

/-- `f` applied to every element. -/
def vmap {α β : Type} {n : Nat} (f : α → β) (xs : Vector α n) : Vector β n :=
  ⟨(xs.toList.map f).toArray, by simp⟩

/-- `f` applied to element `i`. -/
def vmod {α : Type} {n : Nat} (xs : Vector α n) (i : Fin n) (f : α → α) : Vector α n :=
  xs.set i.val (f xs[i]) i.isLt

/-- The elements of `ys` in place of the first ones of `xs`; the rest of `xs` stays. -/
def overlay {α : Type} {n : Nat} (xs : Vector α n) (ys : List α) : Vector α n :=
  ⟨((ys ++ xs.toList.drop ys.length).take n).toArray, by simp; omega⟩

/-! ### RAM -/

/-- The byte written at `a`, if any. -/
def memGet : Memory → Nat → Option Byte
  | [], _ => none
  | (k, b) :: t, a => if k = a then some b else memGet t a

/-- Write byte `b` at `a`, keeping the addresses strictly rising. -/
def memPut : Memory → Nat → Byte → Memory
  | [], a, b => [(a, b)]
  | (k, c) :: t, a, b =>
    if a < k then (a, b) :: (k, c) :: t
    else if a = k then (a, b) :: t
    else (k, c) :: memPut t a b

/-- The canonical form of a memory: strictly rising addresses. An unlisted byte reads as the free value of
its address and epoch, which no byte is, so no listed entry is one an unlisted address stands for. DESIGN CHOICE,
safe: log entry 5. -/
def Memory.wf : Memory → Bool
  | [] => true
  | [_] => true
  | (k, _) :: (l, c) :: t => decide (k < l) && Memory.wf ((l, c) :: t)

/-- RAM byte `a`: what was last written there since reset, or the free value of R135. -/
def ramByte (s : State) (a : Nat) : Byte := (memGet s.ram a).getD (powerOnByte s.epoch a)

/-- The RAM word at byte address `a`, little-endian (R206). -/
def ramWord (s : State) (a : Nat) : Word :=
  ((ramByte s (a + 3) ++ ramByte s (a + 2)) ++ ramByte s (a + 1)) ++ ramByte s a

/-- A memory with word `w` at byte address `a`, little-endian (R206). -/
def memPutWord (m : Memory) (a : Nat) (w : Word) : Memory :=
  memPut (memPut (memPut (memPut m a (w.extractLsb' 0 8)) (a + 1) (w.extractLsb' 8 8))
    (a + 2) (w.extractLsb' 16 8)) (a + 3) (w.extractLsb' 24 8)

/-- Write the RAM word at byte address `a` (R202, R205). -/
def setRamWord (a : Nat) (w : Word) (s : State) : State := { s with ram := memPutWord s.ram a w }

/-- Byte address of entry `j` of a queue, word 0 (R320). -/
def queueAddr : Queue → Nat → Nat
  | .midi, j => 0x2000 + 8 * j
  | .automation, j => 0x3000 + 8 * j

/-- word0 of entry `j` of a queue (R320). -/
def entryWord0 (s : State) (q : Queue) (j : Nat) : Word := ramWord s (queueAddr q j)

/-- word1 of entry `j` of a queue (R320). -/
def entryWord1 (s : State) (q : Queue) (j : Nat) : Word := ramWord s (queueAddr q j + 4)

/-- Byte address of OUT[i] (R135). -/
def outAddr (i : Nat) : Nat := 0x4000 + 4 * i

/-- Byte address of WT[bank][i] (R135). -/
def wtAddr (bank : Bool) (i : Nat) : Nat := (if bank then 0xC000 else 0x8000) + 4 * i

/-! ### Voice state -/

/-- `f` applied to voice `v`. -/
def modVoice (v : Fin NVOICE) (f : Voice → Voice) (s : State) : State :=
  { s with voice := vmod s.voice v f }

/-- `f` applied to envelope E[v][e]. -/
def modEnv (v : Fin NVOICE) (e : Fin NENV) (f : Env → Env) (s : State) : State :=
  modVoice v (fun V => { V with env := vmod V.env e f }) s

/-- `f` applied to oscillator O[v][o]. -/
def modOsc (v : Fin NVOICE) (o : Fin NOSC) (f : Osc → Osc) (s : State) : State :=
  modVoice v (fun V => { V with osc := vmod V.osc o f }) s

/-- `f` applied to filter F[v]. -/
def modFlt (v : Fin NVOICE) (f : Flt → Flt) (s : State) : State :=
  modVoice v (fun V => { V with flt := f V.flt }) s

/-- `f` applied to every envelope of every voice. -/
def modAllEnvs (f : Env → Env) (s : State) : State :=
  { s with voice := vmap (fun V => { V with env := vmap f V.env }) s.voice }

/-- RESULT (R114). -/
def setResult (w : Word) (s : State) : State := { s with result := w }

/-! ### Envelope kill and panic -/

/-- ENV_KILL on one envelope (R424). -/
def envKill (E : Env) : Env :=
  { E with stage := .off, out := f0, outDb := E.dbFloor, cnt := 0#32 }

/-- PANIC_KILL: ENV_KILL on every envelope of every voice (R841). -/
def panicKill (s : State) : State := modAllEnvs envKill s

/-! ### Faults -/

/-- A fault that is raised while a block runs ends the block in the same step: a pending panic is applied
and BUSY is cleared; DONE is not set (R914). -/
def abortBlock (s : State) : State :=
  if s.busy then
    { (if s.panicPend then panicKill s else s) with panicPend := false, busy := false }
  else s

/-- The record of a fault; the first fault wins (R910, R912). -/
def recordFault (c : Cause) (info loc : Word) (s : State) : State :=
  if s.fault then s
  else { s with fault := true, errCause := c, errInfo := info, errLoc := loc,
                irqStatus := irqSetFault s.irqStatus }

/-- `raise Fault(cause, info, loc)` (R910): taking the engine's only exception. -/
def raise (c : Cause) (info loc : Word) (s : State) : State := abortBlock (recordFault c info loc s)

/-- A fault raised by a bus access or a command: ERR_LOC is as R913 says. -/
def raiseAccess (c : Cause) (info : Word) (s : State) : State := raise c info (accessLoc s) s

/-- Return from the fault state: ERR_CLEAR's effect (R844, R915). -/
def clearFault (s : State) : State := { s with fault := false, errCause := .none }

/-! ### Command acceptance -/

/-- Acceptance of a format G command that neither the fault state nor a running block lets through
(R301 steps 1 and 4): discarded in the fault state, CMD_BUSY while busy, executed otherwise. -/
def acceptG (c : Word) (effect : State → State) (s : State) : State :=
  if s.fault then s
  else if s.busy then raiseAccess .cmdBusy c s
  else effect s

/-- Acceptance of a format VU command with `units` units (R301 steps 1 and 4-6; the order of R916). -/
def acceptVU (c : Word) (voice : BitVec 8) (unit : BitVec 4) (units : Nat)
    (effect : Fin NVOICE → Fin units → State → State) (s : State) : State :=
  if s.fault then s
  else if s.busy then raiseAccess .cmdBusy c s
  else if hv : voice.toNat < NVOICE then
    if hu : unit.toNat < units then effect ⟨voice.toNat, hv⟩ ⟨unit.toNat, hu⟩ s
    else raiseAccess .badUnit c s
  else raiseAccess .badVoice c s

end Sys2Proof.Machine
end

