-- ==== Sys2Proof/Machine/Envelope.lean ====
section
/-! DEFINITION. The envelope generator: ENV_SET_TIMES, ENV_SET_DELAY_HOLD, ENV_RETRIGGER, ENV_TRIGGER_DELAYED,
ENV_RELEASE, ENV_FAST_RELEASE, ENV_KILL and ENV_STEP (40_envelope.md R400-R453). -/

namespace Sys2Proof.Machine

open Sys2Proof.Config

/-! ### Operations on one envelope -/

/-- The per-sample increment of a time: fl(1.0 / fl(SR × CLAMPT(t))) (R410). -/
def envInc (sr t : F32) : F32 := fDiv f1 (fMul sr (clampT t))

/-- ENV_SET_TIMES on one envelope, with the global floor `floor` = ENV_DB_FLOOR (R410). -/
def envSetTimes (sr floor tA tD sustain tR : F32) (mode : Bool) (E : Env) : Env :=
  { E with
    dbFloor := floor
    aInc := envInc sr tA
    dInc := envInc sr tD
    rInc := envInc sr tR
    aIncDb := fMul (fNeg floor) (envInc sr tA)
    dIncDb := fMul (fNeg floor) (envInc sr tD)
    rIncDb := fMul (fNeg floor) (envInc sr tR)
    sDb := clamp sustain fNeg96 f0
    sLin := fMin (dbToLin (clamp sustain fNeg96 f0)) f1
    thr := fMin (dbToLin floor) f1
    mode := mode }

/-- ENV_SET_DELAY_HOLD on one envelope (R412). -/
def envSetDelayHold (delay hold : Word) (E : Env) : Env := { E with delayN := delay, holdN := hold }

/-- ENV_RETRIGGER on one envelope (R420). -/
def envRetrigger (E : Env) : Env :=
  { E with stage := .attack, out := f0, outDb := E.dbFloor, cnt := 0#32 }

/-- ENV_TRIGGER_DELAYED on one envelope (R421). -/
def envTriggerDelayed (E : Env) : Env :=
  { E with stage := .delay, out := f0, outDb := E.dbFloor, cnt := 0#32 }

/-- ENV_RELEASE on one envelope (R422). -/
def envRelease (E : Env) : Env := if beforeRelease E.stage then { E with stage := .release } else E

/-- ENV_FAST_RELEASE on one envelope, with the current SR and FAST_R_TIME (R423). -/
def envFastRelease (sr fastRTime : F32) (E : Env) : Env :=
  envRelease { E with rInc := envInc sr fastRTime, rIncDb := fMul (fNeg E.dbFloor) (envInc sr fastRTime) }

/-! ### One step -/

/-- Delay action (R431). -/
def envDelayAction (E : Env) : Env :=
  if E.delayN ≤ satInc E.cnt then { E with stage := .attack, cnt := 0#32 }
  else { E with cnt := satInc E.cnt }

/-- The ceiling of Attack (R432). -/
def envCeiling (E : Env) : Env :=
  { E with out := f1, outDb := f0, cnt := 0#32,
           stage := if 0#32 < E.holdN then .hold else .decay }

/-- Attack action, linear mode (R432). -/
def envAttackLinear (E : Env) : Env :=
  if fLe f1 (fAdd E.out E.aInc) then envCeiling E else { E with out := fAdd E.out E.aInc }

/-- Hold action (R433). -/
def envHoldAction (E : Env) : Env :=
  if E.holdN ≤ satInc E.cnt then { E with stage := .decay, cnt := 0#32 }
  else { E with cnt := satInc E.cnt }

/-- Sustain entry: the sustain level in both domains (R434, R452). -/
def envEnterSustain (E : Env) : Env := { E with out := E.sLin, outDb := E.sDb, stage := .sustain }

/-- Decay action, linear mode (R434). -/
def envDecayLinear (E : Env) : Env :=
  if fLe (fSub E.out E.dInc) E.sLin then envEnterSustain E else { E with out := fSub E.out E.dInc }

/-- Release action, linear mode (R436). -/
def envReleaseLinear (E : Env) : Env :=
  if fLe (fSub E.out E.rInc) f0 then
    { E with out := f0, outDb := E.dbFloor, stage := .wait, cnt := 0#32 }
  else { E with out := fSub E.out E.rInc }

/-- Wait action (R437). -/
def envWaitAction (waitSamples : Word) (E : Env) : Env :=
  if waitSamples ≤ satInc E.cnt then { E with cnt := satInc E.cnt, stage := .off }
  else { E with cnt := satInc E.cnt }

/-- Attack action, dB mode (R451). -/
def envAttackDb (E : Env) : Env :=
  if fLe E.outDb E.dbFloor then
    if fLe f1 (fAdd E.out E.aInc) then envCeiling E
    else if fLe E.thr (fAdd E.out E.aInc) then
      { E with out := fAdd E.out E.aInc, outDb := fMax (linToDb (fAdd E.out E.aInc)) E.dbFloor }
    else { E with out := fAdd E.out E.aInc }
  else if fLe f0 (fAdd E.outDb E.aIncDb) then envCeiling E
  else { E with outDb := fAdd E.outDb E.aIncDb,
                out := fMax E.out (fMin (dbToLin (fAdd E.outDb E.aIncDb)) f1) }

/-- A dB-region level `d` of Decay or Release that has not reached the floor, or the floor (R452, R453). -/
def envDbLevel (d : F32) (E : Env) : Env :=
  if fLe d E.dbFloor then { E with outDb := E.dbFloor, out := fMin E.out E.thr }
  else { E with outDb := d, out := fMin E.out (dbToLin d) }

/-- The last test of the dB-region Decay: at or below the sustain level it ends (R452). -/
def envDecayDbEnd (E : Env) : Env :=
  if E.stage = .decay ∧ fLe E.out E.sLin = true then envEnterSustain E else E

/-- Decay action, dB mode (R452). -/
def envDecayDb (E : Env) : Env :=
  if fLe E.outDb E.dbFloor then envDecayLinear E
  else if fLe (fSub E.outDb E.dIncDb) E.sDb then envDecayDbEnd (envEnterSustain E)
  else envDecayDbEnd (envDbLevel (fSub E.outDb E.dIncDb) E)

/-- Release action, dB mode (R453). -/
def envReleaseDb (E : Env) : Env :=
  if fLe E.outDb E.dbFloor then envReleaseLinear E
  else envDbLevel (fSub E.outDb E.rIncDb) E

/-- One step of an envelope: the action of its stage and mode (R430, R435, R438). -/
def envStep (waitSamples : Word) (E : Env) : Env :=
  match E.stage with
  | .delay => envDelayAction E
  | .attack => if E.mode then envAttackDb E else envAttackLinear E
  | .hold => envHoldAction E
  | .decay => if E.mode then envDecayDb E else envDecayLinear E
  | .sustain => E
  | .release => if E.mode then envReleaseDb E else envReleaseLinear E
  | .wait => envWaitAction waitSamples E
  | .off => E

/-- One step of E[v][e] in the machine, with the live WAIT_SAMPLES (R430, R437). -/
def stepEnv (v : Fin NVOICE) (e : Fin NENV) (s : State) : State :=
  modEnv v e (envStep s.patch.waitSamples) s

/-! ### The commands -/

/-- ENV_RETRIGGER (R420). -/
def execEnvRetrigger (voice : BitVec 8) (unit : BitVec 4) (s : State) : Host.Outcome State Fault Refusal :=
  .next (acceptVU (encodeHead (.envRetrigger voice unit)) voice unit NENV
    (fun v e => modEnv v e envRetrigger) s)

/-- ENV_RELEASE (R422). -/
def execEnvRelease (voice : BitVec 8) (unit : BitVec 4) (s : State) : Host.Outcome State Fault Refusal :=
  .next (acceptVU (encodeHead (.envRelease voice unit)) voice unit NENV
    (fun v e => modEnv v e envRelease) s)

/-- ENV_FAST_RELEASE (R423). -/
def execEnvFastRelease (voice : BitVec 8) (unit : BitVec 4) (s : State) : Host.Outcome State Fault Refusal :=
  .next (acceptVU (encodeHead (.envFastRelease voice unit)) voice unit NENV
    (fun v e s => modEnv v e (envFastRelease s.sampleRate s.patch.fastRTime) s) s)

/-- ENV_KILL (R424). -/
def execEnvKill (voice : BitVec 8) (unit : BitVec 4) (s : State) : Host.Outcome State Fault Refusal :=
  .next (acceptVU (encodeHead (.envKill voice unit)) voice unit NENV
    (fun v e => modEnv v e envKill) s)

/-- ENV_SET_TIMES (R410): ARG0 attack, ARG1 decay, ARG2 sustain dB, ARG3 release. -/
def execEnvSetTimes (voice : BitVec 8) (unit : BitVec 4) (mode : Bool) (s : State) :
    Host.Outcome State Fault Refusal :=
  .next (acceptVU (encodeHead (.envSetTimes voice unit mode)) voice unit NENV
    (fun v e s => modEnv v e (envSetTimes s.sampleRate s.patch.envDbFloor
      s.arg[0] s.arg[1] s.arg[2] s.arg[3] mode) s) s)

/-- ENV_STEP (R430): one step, then RESULT ← E.OUT. -/
def execEnvStep (voice : BitVec 8) (unit : BitVec 4) (s : State) : Host.Outcome State Fault Refusal :=
  .next (acceptVU (encodeHead (.envStep voice unit)) voice unit NENV
    (fun v e s => setResult (stepEnv v e s).voice[v].env[e].out (stepEnv v e s)) s)

/-- ENV_TRIGGER_DELAYED (R421). -/
def execEnvTriggerDelayed (voice : BitVec 8) (unit : BitVec 4) (s : State) :
    Host.Outcome State Fault Refusal :=
  .next (acceptVU (encodeHead (.envTriggerDelayed voice unit)) voice unit NENV
    (fun v e => modEnv v e envTriggerDelayed) s)

/-- ENV_SET_DELAY_HOLD (R412): ARG0 delay, ARG1 hold. -/
def execEnvSetDelayHold (voice : BitVec 8) (unit : BitVec 4) (s : State) :
    Host.Outcome State Fault Refusal :=
  .next (acceptVU (encodeHead (.envSetDelayHold voice unit)) voice unit NENV
    (fun v e s => modEnv v e (envSetDelayHold s.arg[0] s.arg[1]) s) s)

end Sys2Proof.Machine
end

