-- ==== Sys2Proof/Machine/BusMap.lean ====
section
/-! DEFINITION. The address map of the host bus (20_memory.md R200, R204, R220; 10_state.md R110-R145): every
mapped word has one location `Loc`, and `decodeAddr` gives the location of a word-aligned address or
none where the address is unmapped. -/

namespace Sys2Proof.Machine

open Sys2Proof.Config

/-- Registers of one envelope patch group (R126). -/
inductive EnvPatchReg where
  | attack | decay | sustainDb | release | delay | hold | cfg
deriving DecidableEq, Repr

/-- Registers of one oscillator patch group (R127). -/
inductive OscPatchReg where
  | cfg | tune | spread | gain | fm0 | fm1
deriving DecidableEq, Repr

/-- Fields of one envelope of a voice (R142). -/
inductive EnvReg where
  | ctrl | out | outDb | cnt | aInc | dInc | rInc | sLin | sDb | aIncDb | dIncDb | rIncDb
  | delayN | holdN | thr | dbFloor
deriving DecidableEq, Repr

/-- Fields of one oscillator of a voice (R143). -/
inductive OscReg where
  | out | flags | syncPh | fmIn
  | phase (u : Fin NUNI_MAX)
  | inc (u : Fin NUNI_MAX)
deriving DecidableEq, Repr

/-- Fields of one filter section (R144). -/
inductive SectionReg where
  | bp | bpM1 | lp | lpM1 | hp
deriving DecidableEq, Repr

/-- Fields of a voice's filter (R144). -/
inductive FltReg where
  | base | mod | last | flags | hz | coef | res
  | sec (k : Fin NSEC) (r : SectionReg)
deriving DecidableEq, Repr

/-- Fields of a voice block (R141-R145). -/
inductive VoiceReg where
  | note | vel | amp | slots | mmCount | status
  | env (e : Fin NENV) (r : EnvReg)
  | osc (o : Fin NOSC) (r : OscReg)
  | flt (r : FltReg)
  | live (d : Fin NDEST)
  | listIdx (i : Fin NROUTE)
  | listDepth (i : Fin NROUTE)
deriving DecidableEq, Repr

/-- The mapped words of the bus (R220). -/
inductive Loc where
  | id | version | cfg0 | cfg1 | cfg2 | status | cmd
  | arg (k : Fin 4)
  | result | errCause | errInfo | errLoc | irqStatus | irqEnable | sampleRate
  | blockLen | midiCount | atmCount | sampleIdx | pitchBend
  | wtCtrl | wtLock
  | wtBlen (bank : Bool)
  | voiceFree (w : Fin 8)
  | envPatch (e : Fin NENV) (r : EnvPatchReg)
  | oscPatch (o : Fin NOSC) (r : OscPatchReg)
  | fltCfg | fltCutoff | fltResDb | fltEqGainDb | fltEnvAmt
  | slotActive
  | mmBase (d : Fin NDEST)
  | macroVal (k : Fin NMACRO)
  | lfoIn | fastRTime | waitSamples | envDbFloor
  | cc (i : Fin NCC)
  | depth (r : Fin NROUTE)
  /-- Word `hi` (word0 or word1) of entry `j` of an event queue. -/
  | midiQueue (j : Fin EVQ_CAP) (hi : Bool)
  | atmQueue (j : Fin EVQ_CAP) (hi : Bool)
  | out (i : Fin MAX_BLOCK)
  | wt (bank : Bool) (i : Fin WT_LEN)
  | voice (v : Fin NVOICE) (r : VoiceReg)
deriving DecidableEq, Repr

/-- Element `i` of an array of `n` words, none in its unmapped tail (R204). -/
def element (n i : Nat) (f : Fin n → Loc) : Option Loc := if h : i < n then some (f ⟨i, h⟩) else none

/-- Global registers, 0x000-0x07F (R110-R121). -/
def globalMap : List (Nat × Loc) :=
  [ (0x000, .id), (0x004, .version), (0x008, .cfg0), (0x00C, .cfg1), (0x010, .cfg2),
    (0x014, .status), (0x018, .cmd), (0x01C, .arg 0), (0x020, .arg 1), (0x024, .arg 2),
    (0x028, .arg 3), (0x02C, .result), (0x030, .errCause), (0x034, .errInfo), (0x038, .errLoc),
    (0x03C, .irqStatus), (0x040, .irqEnable), (0x044, .sampleRate), (0x048, .blockLen),
    (0x04C, .midiCount), (0x050, .atmCount), (0x054, .sampleIdx), (0x058, .pitchBend),
    (0x060, .wtCtrl), (0x064, .wtLock), (0x068, .wtBlen false), (0x06C, .wtBlen true) ]

/-- Offsets in an envelope patch group (R126). -/
def envPatchMap : List (Nat × EnvPatchReg) :=
  [ (0x00, .attack), (0x04, .decay), (0x08, .sustainDb), (0x0C, .release), (0x10, .delay),
    (0x14, .hold), (0x18, .cfg) ]

/-- Offsets in an oscillator patch group (R127). -/
def oscPatchMap : List (Nat × OscPatchReg) :=
  [ (0x00, .cfg), (0x04, .tune), (0x08, .spread), (0x0C, .gain), (0x10, .fm0), (0x14, .fm1) ]

/-- Single patch registers (R128-R130). -/
def patchMap : List (Nat × Loc) :=
  [ (0x280, .fltCfg), (0x284, .fltCutoff), (0x288, .fltResDb), (0x28C, .fltEqGainDb),
    (0x290, .fltEnvAmt), (0x2C0, .slotActive), (0x380, .macroVal 0), (0x384, .macroVal 1),
    (0x388, .macroVal 2), (0x38C, .macroVal 3), (0x390, .lfoIn), (0x394, .fastRTime),
    (0x398, .waitSamples), (0x39C, .envDbFloor) ]

/-- Offsets in an envelope group of a voice block (R142). -/
def envMap : List (Nat × EnvReg) :=
  [ (0x00, .ctrl), (0x04, .out), (0x08, .outDb), (0x0C, .cnt), (0x10, .aInc), (0x14, .dInc),
    (0x18, .rInc), (0x1C, .sLin), (0x20, .sDb), (0x24, .aIncDb), (0x28, .dIncDb), (0x2C, .rIncDb),
    (0x30, .delayN), (0x34, .holdN), (0x38, .thr), (0x3C, .dbFloor) ]

/-- The single words of an oscillator group of a voice block (R143). -/
def oscMap : List (Nat × OscReg) :=
  [ (0x00, .out), (0x04, .flags), (0x08, .syncPh), (0x0C, .fmIn) ]

/-- The single words of the filter group (R144). -/
def fltMap : List (Nat × FltReg) :=
  [ (0x00, .base), (0x04, .mod), (0x08, .last), (0x0C, .flags), (0x10, .hz), (0x14, .coef),
    (0x18, .res) ]

/-- Offsets in a filter section (R144). -/
def sectionMap : List (Nat × SectionReg) :=
  [ (0x00, .bp), (0x04, .bpM1), (0x08, .lp), (0x0C, .lpM1), (0x10, .hp) ]

/-- The voice registers (R141). -/
def voiceMap : List (Nat × VoiceReg) :=
  [ (0x000, .note), (0x004, .vel), (0x008, .amp), (0x00C, .slots), (0x010, .mmCount),
    (0x014, .status) ]

/-- An oscillator group offset (R143): lanes u ≥ NUNI_MAX are unmapped. -/
def decodeOsc (f : Nat) : Option OscReg :=
  if 0x40 ≤ f ∧ f < 0x60 then
    if h : (f - 0x40) / 4 < NUNI_MAX then some (.phase ⟨(f - 0x40) / 4, h⟩) else none
  else if 0x60 ≤ f then
    if h : (f - 0x60) / 4 < NUNI_MAX then some (.inc ⟨(f - 0x60) / 4, h⟩) else none
  else oscMap.lookup f

/-- A filter group offset (R144). -/
def decodeFlt (f : Nat) : Option FltReg :=
  if 0x40 ≤ f then
    if h : (f - 0x40) / 0x20 < NSEC then
      (sectionMap.lookup ((f - 0x40) % 0x20)).map (.sec ⟨(f - 0x40) / 0x20, h⟩)
    else none
  else fltMap.lookup f

/-- An offset in a voice block (R141-R145). -/
def decodeVoice (f : Nat) : Option VoiceReg :=
  if f < 0x40 then voiceMap.lookup f
  else if f < 0x200 then
    if h : (f - 0x40) / 0x40 < NENV then
      (envMap.lookup ((f - 0x40) % 0x40)).map (.env ⟨(f - 0x40) / 0x40, h⟩)
    else none
  else if f < 0x300 then
    if h : (f - 0x200) / 0x80 < NOSC then
      (decodeOsc ((f - 0x200) % 0x80)).map (.osc ⟨(f - 0x200) / 0x80, h⟩)
    else none
  else if f < 0x400 then (decodeFlt (f - 0x300)).map .flt
  else if f < 0x600 then
    if h : (f - 0x400) / 4 < NDEST then some (.live ⟨(f - 0x400) / 4, h⟩) else none
  else if h : (f - 0x600) / 8 < NROUTE then
    some (if (f - 0x600) % 8 = 0 then .listIdx ⟨(f - 0x600) / 8, h⟩ else .listDepth ⟨(f - 0x600) / 8, h⟩)
  else none

/-- The patch window 0x100-0x3FF (R125-R130). -/
def decodePatch (a : Nat) : Option Loc :=
  if a < 0x200 then
    if h : (a - 0x100) / 0x20 < NENV then
      (envPatchMap.lookup ((a - 0x100) % 0x20)).map (.envPatch ⟨(a - 0x100) / 0x20, h⟩)
    else none
  else if a < 0x280 then
    if h : (a - 0x200) / 0x20 < NOSC then
      (oscPatchMap.lookup ((a - 0x200) % 0x20)).map (.oscPatch ⟨(a - 0x200) / 0x20, h⟩)
    else none
  else if 0x300 ≤ a ∧ a < 0x380 then element NDEST ((a - 0x300) / 4) .mmBase
  else patchMap.lookup a

/-- The location of a word-aligned byte address; none where it is unmapped (R220, R204). -/
def decodeAddr (a : Nat) : Option Loc :=
  if a < 0x80 then globalMap.lookup a
  else if a < 0xA0 then element 8 ((a - 0x80) / 4) .voiceFree
  else if a < 0x100 then none
  else if a < 0x400 then decodePatch a
  else if a < 0x800 then element NCC ((a - 0x400) / 4) .cc
  else if a < 0x1000 then element NROUTE ((a - 0x800) / 4) .depth
  else if a < 0x2000 then none
  else if a < 0x3000 then element EVQ_CAP ((a - 0x2000) / 8) (.midiQueue · ((a - 0x2000) % 8 == 4))
  else if a < 0x4000 then element EVQ_CAP ((a - 0x3000) / 8) (.atmQueue · ((a - 0x3000) % 8 == 4))
  else if a < 0x8000 then element MAX_BLOCK ((a - 0x4000) / 4) .out
  else if a < 0xC000 then element WT_LEN ((a - 0x8000) / 4) (.wt false)
  else if a < 0x10000 then element WT_LEN ((a - 0xC000) / 4) (.wt true)
  else if h : (a - 0x10000) / 0x1000 < NVOICE then
    (decodeVoice ((a - 0x10000) % 0x1000)).map (.voice ⟨(a - 0x10000) / 0x1000, h⟩)
  else none

/-- The locations an automation event may write (attribute A, R101; R322): the patch registers
0x100-0x3FF and the depth table. -/
def Loc.isAutomatable : Loc → Bool
  | .envPatch .. | .oscPatch .. | .fltCfg | .fltCutoff | .fltResDb | .fltEqGainDb | .fltEnvAmt
  | .slotActive | .mmBase _ | .macroVal _ | .lfoIn | .fastRTime | .waitSamples | .envDbFloor
  | .depth _ => true
  | _ => false

/-- The location TARGET of an automation event names, if it may be written (R322, R824). -/
def automationTarget (target : BitVec 16) : Option Loc :=
  match decodeAddr (4 * target.toNat) with
  | some l => if l.isAutomatable then some l else none
  | none => none

end Sys2Proof.Machine
end

