-- ==== Sys2Proof/Machine/EventCheck.lean ====
section
/-! DEFINITION. Which TARGET and VALUE an event may have (30_encoding.md R322): what RUN's validation checks
and what a well-formed event instruction is. -/

namespace Sys2Proof.Machine

open Sys2Proof.Config

/-- TARGET is valid for the event's queue and type (R322). -/
def eventTargetValid : Instr → Bool
  | .evNoteOn _ target _ => decide (target.toNat < NVOICE)
  | .evNoteOff _ target _ => decide (target.toNat < NVOICE)
  | .evControllerM _ target _ => decide (target.toNat < NCC)
  | .evAutomation _ target _ => (automationTarget target).isSome
  | _ => true

/-- VALUE has its reserved bits 0: [31:15] and [7] of a NOTE_ON, [31:1] of a NOTE_OFF (R322). -/
def eventValueValid : Instr → Bool
  | .evNoteOn _ _ value => value &&& 0xFFFF8080#32 == 0#32
  | .evNoteOff _ _ value => value &&& 0xFFFFFFFE#32 == 0#32
  | _ => true

end Sys2Proof.Machine
end

