-- ==== Sys2Proof/Machine/Filter.lean ====
section
/-! DEFINITION. The state-variable filter section, the cascaded chain and the cutoff and resonance controls
(42_filter.md R600-R650). -/

namespace Sys2Proof.Machine

open Sys2Proof.Config

/-! ### Cutoff and resonance -/

/-- FLT_SET_CUTOFF_BASE (R610). -/
def fltSetBase (x : F32) (F : Flt) : Flt := { F with base := finite x }

/-- FLT_ADD_CUTOFF_MOD (R611). -/
def fltAddMod (x : F32) (F : Flt) : Flt := { F with mod := finite (fAdd F.mod (finite x)) }

/-- The combined cutoff note (R612). -/
def fltNote (F : Flt) : F32 := clamp (fAdd F.base F.mod) f0 f127

/-- FLT_SET_CUTOFF: recompute HZ and COEF only if the combined note changed (R612). -/
def fltSetCutoff (sr : F32) (os : Oversampling) (F : Flt) : Flt :=
  if F.valid = false ∨ fEq (fltNote F) F.last = false then
    { F with
      last := fltNote F
      valid := true
      hz := noteToHz (fltNote F)
      coef := fMin (cutoffCoef (noteToHz (fltNote F)) (fMul sr (fOfNat (osFactor os)))) coefMax }
  else F

/-- FLT_SET_RESONANCE (R615). -/
def fltSetRes (db : F32) (F : Flt) : Flt :=
  { F with res := fMul f2 (fSub f1 (dbToLin (clamp db fNeg30 fNegTenth))) }

/-! ### The section -/

/-- SEC: one update of a section with input x and coefficients f, q (R620). -/
def secUpdate (x f q : F32) (K : Section) : Section :=
  let hp := dn (fSub x (fAdd (fMul K.bpM1 q) K.lpM1))
  let bp := dn (fAdd (fMul hp f) K.bpM1)
  let lp := dn (fAdd (fMul bp f) K.lpM1)
  { bp := bp, bpM1 := bp, lp := lp, lpM1 := lp, hp := hp }

/-- `n` updates of a section with one input: a zero-order hold (R631). -/
def secRepeat (x f q : F32) : Nat → Section → Section
  | 0, K => K
  | n + 1, K => secRepeat x f q n (secUpdate x f q K)

/-- OUTSEL(T, k): the response taken from a section (R621). -/
def outSel (eqGainDb : F32) (t : FltType) (K : Section) : F32 :=
  match t with
  | .off => f0
  | .lp => K.lp
  | .hp => K.hp
  | .bp => K.bp
  | .notch => fAdd K.hp K.lp
  | .eq => fAdd (fAdd K.lp K.hp) (fMul K.bp (dbToLin eqGainDb))

/-! ### The chain -/

/-- One section of the chain: its update and what it passes on (R630). -/
def chainSection (p : FltPatch) (st : Flt × F32) (k : Fin NSEC) : Flt × F32 :=
  if k.val < polesCode p.poles then
    let K := secRepeat st.2 st.1.coef st.1.res (osFactor p.os) st.1.sec[k]
    ({ st.1 with sec := st.1.sec.set k.val K k.isLt },
     if k.val + 1 < polesCode p.poles then K.lp else outSel p.eqGainDb p.type K)
  else st

/-- FLT_STEP with input x: the filter after it and its output (R630). TYPE OFF is a bypass. -/
def fltStep (p : FltPatch) (x : F32) (F : Flt) : Flt × F32 :=
  if p.type = .off then (F, finite x)
  else (List.finRange NSEC).foldl (chainSection p) (F, finite x)

/-- FLT_RESET (R640). -/
def fltReset (F : Flt) : Flt :=
  { F with sec := Vector.replicate NSEC { bp := f0, bpM1 := f0, lp := f0, lpM1 := f0, hp := f0 },
           mod := f0, valid := false }

/-! ### The commands -/

/-- FLT_SET_CUTOFF_BASE (R610): ARG0 note units. -/
def execFltSetCutoffBase (voice : BitVec 8) (unit : BitVec 4) (s : State) :
    Host.Outcome State Fault Refusal :=
  .next (acceptVU (encodeHead (.fltSetCutoffBase voice unit)) voice unit 1
    (fun v _ s => modFlt v (fltSetBase s.arg[0]) s) s)

/-- FLT_ADD_CUTOFF_MOD (R611): ARG0 note units. -/
def execFltAddCutoffMod (voice : BitVec 8) (unit : BitVec 4) (s : State) :
    Host.Outcome State Fault Refusal :=
  .next (acceptVU (encodeHead (.fltAddCutoffMod voice unit)) voice unit 1
    (fun v _ s => modFlt v (fltAddMod s.arg[0]) s) s)

/-- FLT_SET_CUTOFF (R612): RESULT ← COEF. -/
def execFltSetCutoff (voice : BitVec 8) (unit : BitVec 4) (s : State) : Host.Outcome State Fault Refusal :=
  .next (acceptVU (encodeHead (.fltSetCutoff voice unit)) voice unit 1
    (fun v _ s => setResult (fltSetCutoff s.sampleRate s.patch.flt.os s.voice[v].flt).coef
      (modFlt v (fltSetCutoff s.sampleRate s.patch.flt.os) s)) s)

/-- FLT_SET_RESONANCE (R615): ARG0 dB. -/
def execFltSetResonance (voice : BitVec 8) (unit : BitVec 4) (s : State) :
    Host.Outcome State Fault Refusal :=
  .next (acceptVU (encodeHead (.fltSetResonance voice unit)) voice unit 1
    (fun v _ s => modFlt v (fltSetRes s.arg[0]) s) s)

/-- FLT_STEP (R630): ARG0 input sample; RESULT ← output. -/
def execFltStep (voice : BitVec 8) (unit : BitVec 4) (s : State) : Host.Outcome State Fault Refusal :=
  .next (acceptVU (encodeHead (.fltStep voice unit)) voice unit 1
    (fun v _ s => setResult (fltStep s.patch.flt s.arg[0] s.voice[v].flt).2
      (modFlt v (fun F => (fltStep s.patch.flt s.arg[0] F).1) s)) s)

/-- FLT_RESET (R640). -/
def execFltReset (voice : BitVec 8) (unit : BitVec 4) (s : State) : Host.Outcome State Fault Refusal :=
  .next (acceptVU (encodeHead (.fltReset voice unit)) voice unit 1
    (fun v _ => modFlt v fltReset) s)

end Sys2Proof.Machine
end

