-- ==== Sys2Proof/Machine/ModMatrix.lean ====
section
/-! DEFINITION. The modulation matrix: compaction at note-on and per-sample application
(43_modmatrix.md R700-R731). -/

namespace Sys2Proof.Machine

open Sys2Proof.Config

/-- Index of destination (s, c) (R129). -/
def destIndex (s : Fin NSLOT) (c : Fin NCTRL) : Fin NDEST :=
  ⟨s.val * NCTRL + c.val, by have := s.isLt; have := c.isLt; simp only [NSLOT, NCTRL, NDEST] at *; omega⟩

/-- Index of route (s, c, k) in the depth table (R132). -/
def routeIndex (s : Fin NSLOT) (c : Fin NCTRL) (k : Fin NSRC) : Fin NROUTE :=
  ⟨(s.val * NCTRL + c.val) * NSRC + k.val, by
    have := s.isLt; have := c.isLt; have := k.isLt
    simp only [NSLOT, NCTRL, NSRC, NROUTE] at *; omega⟩

/-! ### Compaction -/

/-- The route (s, c, k) if its depth is not zero (R702, R710). -/
def routeOf (depth : Vector F32 NROUTE) (s : Fin NSLOT) (c : Fin NCTRL) (k : Fin NSRC) : Option Route :=
  if fEq depth[routeIndex s c k] f0 then none
  else some { slot := BitVec.ofNat 8 s.val, control := BitVec.ofNat 8 c.val,
              source := BitVec.ofNat 8 k.val, depth := depth[routeIndex s c k] }

/-- The retained routes: by slot, then control, then source, over the active slots (R710). -/
def routes (depth : Vector F32 NROUTE) (active : BitVec NSLOT) : List Route :=
  (List.finRange NSLOT).flatMap fun s =>
    if active.getLsbD s.val then
      (List.finRange NCTRL).flatMap fun c => (List.finRange NSRC).filterMap fun k => routeOf depth s c k
    else []

/-- MM_COMPACT on one voice (R710): entries at or past the count keep their contents. -/
def mmCompact (active : BitVec NSLOT) (depth : Vector F32 NROUTE) (base : Vector F32 NDEST) (V : Voice) :
    Voice :=
  { V with
    slots := active
    list := overlay V.list (routes depth active)
    mmCount := BitVec.ofNat 32 (routes depth active).length
    live := base }

/-- MM_COMPACT of voice v in the machine (R710). -/
def compactVoice (v : Fin NVOICE) (s : State) : State :=
  modVoice v (mmCompact s.patch.slotActive s.depth s.patch.mmBase) s

/-! ### Application -/

/-- SRC_v(k) (R701). -/
def sourceValue (p : Patch) (V : Voice) (k : Nat) : F32 :=
  match k with
  | 0 => V.env[0].out
  | 1 => V.env[1].out
  | 2 => p.lfoIn
  | 3 => fDiv V.note f127
  | 4 => fDiv (fOfNat V.vel.toNat) f127
  | 5 => p.macroVal[0]
  | 6 => p.macroVal[1]
  | 7 => p.macroVal[2]
  | 8 => p.macroVal[3]
  | _ => f0

/-- One list entry's contribution to its destination (R720). An entry out of range does not exist
(R721). DESIGN CHOICE for such an entry, unsafe: log entry 16. -/
def applyRoute (p : Patch) (V : Voice) (live : Vector F32 NDEST) (r : Route) : Vector F32 NDEST :=
  if h : r.slot.toNat < NSLOT ∧ r.control.toNat < NCTRL ∧ r.source.toNat < NSRC then
    vmod live (destIndex ⟨r.slot.toNat, h.1⟩ ⟨r.control.toNat, h.2.1⟩)
      (fun x => fAdd x (fMul (sourceValue p V r.source.toNat) r.depth))
  else live

/-- MM_APPLY on one voice: rebuilt from MM_BASE, entries in list order (R720). -/
def mmApply (p : Patch) (V : Voice) : Voice :=
  { V with live := (V.list.toList.take V.mmCount.toNat).foldl (applyRoute p V) p.mmBase }

/-- MM_APPLY of voice v in the machine (R720). -/
def applyVoice (v : Fin NVOICE) (s : State) : State := modVoice v (mmApply s.patch) s

/-! ### The commands -/

/-- MM_COMPACT (R710): RESULT ← n. -/
def execMmCompact (voice : BitVec 8) (unit : BitVec 4) (s : State) : Host.Outcome State Fault Refusal :=
  .next (acceptVU (encodeHead (.mmCompact voice unit)) voice unit 1
    (fun v _ s => setResult (compactVoice v s).voice[v].mmCount (compactVoice v s)) s)

/-- MM_APPLY (R720): RESULT ← MM_COUNT. -/
def execMmApply (voice : BitVec 8) (unit : BitVec 4) (s : State) : Host.Outcome State Fault Refusal :=
  .next (acceptVU (encodeHead (.mmApply voice unit)) voice unit 1
    (fun v _ s => setResult s.voice[v].mmCount (applyVoice v s)) s)

end Sys2Proof.Machine
end

