-- ==== Sys2Proof/Machine/Oscillator.lean ====
section
/-! DEFINITION. The oscillators: phase accumulator, unison detuner, hard sync and FM mixer
(41_oscillator.md R500-R560). -/

namespace Sys2Proof.Machine

open Sys2Proof.Config

/-! ### Waveforms -/

/-- The used length L_b of the active wavetable bank (R231). -/
def activeLen (s : State) : Word := if s.activeBank then s.wtBlen1 else s.wtBlen0

/-- WAVETABLE at phase `p`: index floor(fl(p × L)) cut at L − 1, read through FINITE (R525). DESIGN CHOICE for
phases outside [0, 1), which no run reaches, unsafe: log entry 11. -/
def wavetableAt (s : State) (p : F32) : F32 :=
  finite (ramWord s (wtAddr s.activeBank
    (min (fFloor (fMul p (fOfNat (activeLen s).toNat))) ((activeLen s).toNat - 1))))

/-- WAVE(p) by OSC_CFG.WAVE (R520). -/
def waveAt (s : State) (w : Waveform) (p : F32) : F32 :=
  match w with
  | .off => f0
  | .sine => sine p
  | .saw => fSub (fMul f2 p) f1
  | .square => if fLt p fHalf then f1 else fNeg1
  | .triangle => if fLt p fHalf then fSub (fMul f4 p) f1 else fSub f3 (fMul f4 p)
  | .wavetable => wavetableAt s p

/-! ### Unison detuner -/

/-- The offset of lane `u` of `n`: fl(spread × fl(float(2u − n + 1) / float(2n − 2))), 0.0 for one lane (R510). -/
def laneOffset (n : Nat) (spread : F32) (u : Nat) : F32 :=
  if n = 1 then f0
  else fMul spread (fDiv (fOfInt (2 * (u : Int) - n + 1)) (fOfInt (2 * (n : Int) - 2)))

/-- The increment of lane `u` (R510). -/
def laneInc (sr : F32) (n : Nat) (spread base : F32) (u : Nat) : F32 :=
  fDiv (noteToHz (clamp (fAdd base (laneOffset n (clamp spread f0 f12) u)) f0 f127)) sr

/-- OSC_SET_UNISON_PITCH on one oscillator with `n` active lanes (R510); lanes u ≥ n keep theirs. -/
def oscSetUnisonPitch (sr : F32) (n : Nat) (spread base : F32) (O : Osc) : Osc :=
  (List.finRange NUNI_MAX).foldl
    (fun O u => if u.val < n then { O with inc := O.inc.set u.val (laneInc sr n spread base u.val) u.isLt }
                else O) O

/-! ### Phase accumulator and hard sync -/

/-- The effective increment of a lane: fl(INC + FM_IN) clamped to [0, INC_MAX] (R540). -/
def effectiveInc (inc fm : F32) : F32 := clamp (fAdd inc fm) f0 incMax

/-- A phase that has reached 1.0 wraps by one subtraction (R540, R541). -/
def wrapPhase (ph : F32) : F32 := if fLe f1 ph then fSub ph f1 else ph

/-- The phase of one lane after its update; `sync` is the master's phase when it forces this one (R540, R550). -/
def lanePhase (phase inc fm : F32) (sync : Option F32) : F32 :=
  match sync with
  | some ph => ph
  | none => wrapPhase (fAdd phase (effectiveInc inc fm))

/-- The wrap bit of one lane's own advance (R540, R550). -/
def laneWraps (phase inc fm : F32) : Bool := fLe f1 (fAdd phase (effectiveInc inc fm))

/-- One lane of OSC_STEP: the phase, the flags of lane 0, and the accumulated sum (R540). -/
def stepLane (wave : F32 → F32) (sync : Option F32) (O : Osc) (acc : F32) (u : Fin NUNI_MAX) : Osc × F32 :=
  ({ O with
      phase := O.phase.set u.val (lanePhase O.phase[u] O.inc[u] O.fmIn sync) u.isLt
      wrap := if u.val = 0 then laneWraps O.phase[u] O.inc[u] O.fmIn else O.wrap
      syncPh := if u.val = 0 then lanePhase O.phase[u] O.inc[u] O.fmIn sync else O.syncPh },
   fAdd acc (wave (lanePhase O.phase[u] O.inc[u] O.fmIn sync)))

/-- The lanes 0 .. n − 1 of OSC_STEP in increasing order, from a sum of +0.0 (R540). -/
def stepLanes (wave : F32 → F32) (sync : Option F32) (n : Nat) (O : Osc) : Osc × F32 :=
  (List.finRange NUNI_MAX).foldl
    (fun st u => if u.val < n then stepLane wave sync st.1 st.2 u else st) (O, f0)

/-- OSC_STEP on one oscillator with `n` lanes (R540). -/
def oscStep (wave : F32 → F32) (sync : Option F32) (n : Nat) (O : Osc) : Osc :=
  { (stepLanes wave sync n O).1 with
    out := fMul (stepLanes wave sync n O).2 (fDiv f1 (fOfNat n)) }

/-- The master's phase where it forces oscillator `o`'s step: only oscillator 1 with SYNC, when the master's
last step wrapped (R540, R550, R551). -/
def syncPhase (v : Fin NVOICE) (o : Fin NOSC) (s : State) : Option F32 :=
  if o = 1 ∧ s.patch.osc[1].sync = true ∧ s.voice[v].osc[0].wrap = true
  then some s.voice[v].osc[0].syncPh else none

/-- OSC_STEP of O[v][o] in the machine (R540). -/
def stepOsc (v : Fin NVOICE) (o : Fin NOSC) (s : State) : State :=
  modOsc v o (oscStep (waveAt s s.patch.osc[o].wave) (syncPhase v o s) s.patch.osc[o].uni.toNat) s

/-- OSC_SET_UNISON_PITCH of O[v][o] in the machine (R510). -/
def setPitch (v : Fin NVOICE) (o : Fin NOSC) (spread base : F32) (s : State) : State :=
  modOsc v o (oscSetUnisonPitch s.sampleRate s.patch.osc[o].uni.toNat spread base) s

/-- OSC_RESET on one oscillator (R545). -/
def oscReset (O : Osc) : Osc :=
  { O with phase := Vector.replicate NUNI_MAX f0, out := f0, wrap := false, syncPh := f0, fmIn := f0 }

/-! ### FM mixer -/

/-- OSC_FM_MIX of O[v][o] (R560). -/
def mixFm (v : Fin NVOICE) (o : Fin NOSC) (s : State) : State :=
  modOsc v o (fun O => { O with
    fmIn := fAdd (fMul s.patch.osc[o].fm0 s.voice[v].osc[0].out)
                 (fMul s.patch.osc[o].fm1 s.voice[v].osc[1].out) }) s

/-! ### The commands -/

/-- OSC_SET_UNISON_PITCH (R510): ARG0 spread, ARG1 base pitch. -/
def execOscSetUnisonPitch (voice : BitVec 8) (unit : BitVec 4) (s : State) :
    Host.Outcome State Fault Refusal :=
  .next (acceptVU (encodeHead (.oscSetUnisonPitch voice unit)) voice unit NOSC
    (fun v o s => setPitch v o s.arg[0] s.arg[1] s) s)

/-- OSC_STEP (R540): RESULT ← O.OUT. -/
def execOscStep (voice : BitVec 8) (unit : BitVec 4) (s : State) : Host.Outcome State Fault Refusal :=
  .next (acceptVU (encodeHead (.oscStep voice unit)) voice unit NOSC
    (fun v o s => setResult (stepOsc v o s).voice[v].osc[o].out (stepOsc v o s)) s)

/-- OSC_RESET (R545). -/
def execOscReset (voice : BitVec 8) (unit : BitVec 4) (s : State) : Host.Outcome State Fault Refusal :=
  .next (acceptVU (encodeHead (.oscReset voice unit)) voice unit NOSC
    (fun v o => modOsc v o oscReset) s)

/-- OSC_FM_MIX (R560). -/
def execOscFmMix (voice : BitVec 8) (unit : BitVec 4) (s : State) : Host.Outcome State Fault Refusal :=
  .next (acceptVU (encodeHead (.oscFmMix voice unit)) voice unit NOSC
    (fun v o => mixFm v o) s)

end Sys2Proof.Machine
end

