-- ==== Sys2Proof/Machine/Registers.lean ====
section
/-! DEFINITION. Reading and writing the word at a location: access attributes, reserved bits and write filters
(10_state.md R101, R110-R145, R160; 20_memory.md R201, R202, R212). -/

namespace Sys2Proof.Machine

open Sys2Proof.Config

/-! ### Reading -/

/-- A word of an envelope patch group (R126). -/
def readEnvPatch (p : EnvPatch) : EnvPatchReg → Word
  | .attack => p.attack | .decay => p.decay | .sustainDb => p.sustainDb | .release => p.release
  | .delay => p.delay | .hold => p.hold
  | .cfg => BitVec.ofNat 32 (flagBit p.mode)

/-- A word of an oscillator patch group (R127). -/
def readOscPatch (p : OscPatch) : OscPatchReg → Word
  | .cfg => oscCfgWord p
  | .tune => p.tune | .spread => p.spread | .gain => p.gain | .fm0 => p.fm0 | .fm1 => p.fm1

/-- A word of an envelope (R142). -/
def readEnv (E : Env) : EnvReg → Word
  | .ctrl => envCtrlWord E
  | .out => E.out | .outDb => E.outDb | .cnt => E.cnt
  | .aInc => E.aInc | .dInc => E.dInc | .rInc => E.rInc
  | .sLin => E.sLin | .sDb => E.sDb
  | .aIncDb => E.aIncDb | .dIncDb => E.dIncDb | .rIncDb => E.rIncDb
  | .delayN => E.delayN | .holdN => E.holdN | .thr => E.thr | .dbFloor => E.dbFloor

/-- A word of an oscillator (R143). -/
def readOsc (O : Osc) : OscReg → Word
  | .out => O.out
  | .flags => BitVec.ofNat 32 (flagBit O.wrap)
  | .syncPh => O.syncPh | .fmIn => O.fmIn
  | .phase u => O.phase[u]
  | .inc u => O.inc[u]

/-- A word of a filter section (R144). -/
def readSection (K : Section) : SectionReg → Word
  | .bp => K.bp | .bpM1 => K.bpM1 | .lp => K.lp | .lpM1 => K.lpM1 | .hp => K.hp

/-- A word of a filter (R144). -/
def readFlt (F : Flt) : FltReg → Word
  | .base => F.base | .mod => F.mod | .last => F.last
  | .flags => BitVec.ofNat 32 (flagBit F.valid)
  | .hz => F.hz | .coef => F.coef | .res => F.res
  | .sec k r => readSection F.sec[k] r

/-- A word of a voice block (R141-R145). STATUS is a live view. -/
def readVoice (V : Voice) : VoiceReg → Word
  | .note => V.note
  | .vel => V.vel.setWidth 32
  | .amp => V.amp
  | .slots => V.slots.setWidth 32
  | .mmCount => V.mmCount
  | .status => BitVec.ofNat 32 (flagBit (voiceActive V))
  | .env e r => readEnv V.env[e] r
  | .osc o r => readOsc V.osc[o] r
  | .flt r => readFlt V.flt r
  | .live d => V.live[d]
  | .listIdx i => routeIdxWord V.list[i]
  | .listDepth i => V.list[i].depth

/-- The word a read of a location returns (R201): CMD is write-only and reads 0; WT_LOCK gives the value
before the set. -/
def readLoc (s : State) : Loc → Word
  | .id => 0x41445352#32
  | .version => 0x00000007#32
  | .cfg0 => cfg0Word | .cfg1 => cfg1Word | .cfg2 => cfg2Word
  | .status => statusWord s
  | .cmd => 0#32
  | .arg k => s.arg[k]
  | .result => s.result
  | .errCause => BitVec.ofNat 32 (causeCode s.errCause)
  | .errInfo => s.errInfo
  | .errLoc => s.errLoc
  | .irqStatus => s.irqStatus.setWidth 32
  | .irqEnable => s.irqEnable.setWidth 32
  | .sampleRate => s.sampleRate
  | .blockLen => s.blockLen | .midiCount => s.midiCount | .atmCount => s.atmCount
  | .sampleIdx => s.schedI
  | .pitchBend => s.pitchBend
  | .wtCtrl => wtCtrlWord s
  | .wtLock => BitVec.ofNat 32 (flagBit s.wtLock)
  | .wtBlen bank => if bank then s.wtBlen1 else s.wtBlen0
  | .voiceFree w => voiceFreeWord s w.val
  | .envPatch e r => readEnvPatch s.patch.env[e] r
  | .oscPatch o r => readOscPatch s.patch.osc[o] r
  | .fltCfg => fltCfgWord s.patch.flt
  | .fltCutoff => s.patch.flt.cutoff
  | .fltResDb => s.patch.flt.resDb
  | .fltEqGainDb => s.patch.flt.eqGainDb
  | .fltEnvAmt => s.patch.flt.envAmt
  | .slotActive => s.patch.slotActive.setWidth 32
  | .mmBase d => s.patch.mmBase[d]
  | .macroVal k => s.patch.macroVal[k]
  | .lfoIn => s.patch.lfoIn
  | .fastRTime => s.patch.fastRTime
  | .waitSamples => s.patch.waitSamples
  | .envDbFloor => s.patch.envDbFloor
  | .cc i => s.cc[i]
  | .depth r => s.depth[r]
  | .midiQueue j hi => if hi then entryWord1 s .midi j.val else entryWord0 s .midi j.val
  | .atmQueue j hi => if hi then entryWord1 s .automation j.val else entryWord0 s .automation j.val
  | .out i => ramWord s (outAddr i.val)
  | .wt bank i => ramWord s (wtAddr bank i.val)
  | .voice v r => readVoice s.voice[v] r

/-! ### Writing -/

/-- A write to an envelope patch group (R126). -/
def writeEnvPatch (x : Word) (p : EnvPatch) : EnvPatchReg → EnvPatch
  | .attack => { p with attack := clamp x f0 f60 }
  | .decay => { p with decay := clamp x f0 f60 }
  | .sustainDb => { p with sustainDb := clamp x fNeg96 f0 }
  | .release => { p with release := clamp x f0 f60 }
  | .delay => { p with delay := x }
  | .hold => { p with hold := x }
  | .cfg => { p with mode := x.getLsbD 0 }

/-- A write to the patch group of oscillator `o` (R127): SYNC is hardwired 0 for o = 0 (R551). -/
def writeOscPatch (o : Fin NOSC) (x : Word) (p : OscPatch) : OscPatchReg → OscPatch
  | .cfg => { p with wave := waveOfCode (x.extractLsb' 0 3).toNat
                     uni := uniOfCode (x.extractLsb' 4 4)
                     sync := x.getLsbD 8 && decide (o = 1) }
  | .tune => { p with tune := clamp x fNeg48 f48 }
  | .spread => { p with spread := clamp x f0 f12 }
  | .gain => { p with gain := clamp x f0 f1 }
  | .fm0 => { p with fm0 := clamp x f0 f1 }
  | .fm1 => { p with fm1 := clamp x f0 f1 }

/-- A write to FLT_CFG (R128). -/
def writeFltCfg (x : Word) (p : FltPatch) : FltPatch :=
  { p with type := fltTypeOfCode (x.extractLsb' 0 3).toNat
           poles := polesOfCode (x.extractLsb' 4 2).toNat
           os := osOfCode (x.extractLsb' 8 2).toNat }

/-- A write to an envelope field (R142). -/
def writeEnv (x : Word) (E : Env) : EnvReg → Env
  | .ctrl => { E with stage := stageOfCode (x.extractLsb' 0 3).toNat, mode := x.getLsbD 8 }
  | .out => { E with out := clamp x f0 f1 }
  | .outDb => { E with outDb := finite x }
  | .cnt => { E with cnt := x }
  | .aInc => { E with aInc := clamp x f0 fMaxFinite }
  | .dInc => { E with dInc := clamp x f0 fMaxFinite }
  | .rInc => { E with rInc := clamp x f0 fMaxFinite }
  | .sLin => { E with sLin := clamp x f0 f1 }
  | .sDb => { E with sDb := clamp x fNeg96 f0 }
  | .aIncDb => { E with aIncDb := clamp x f0 fMaxFinite }
  | .dIncDb => { E with dIncDb := clamp x f0 fMaxFinite }
  | .rIncDb => { E with rIncDb := clamp x f0 fMaxFinite }
  | .delayN => { E with delayN := x }
  | .holdN => { E with holdN := x }
  | .thr => { E with thr := clamp x f0 f1 }
  | .dbFloor => { E with dbFloor := clamp x fNeg96 fNeg1 }

/-- A write to an oscillator field (R143). -/
def writeOsc (x : Word) (O : Osc) : OscReg → Osc
  | .out => { O with out := finite x }
  | .flags => { O with wrap := x.getLsbD 0 }
  | .syncPh => { O with syncPh := clamp x f0 incMax }
  | .fmIn => { O with fmIn := finite x }
  | .phase u => { O with phase := O.phase.set u.val (clamp x f0 incMax) u.isLt }
  | .inc u => { O with inc := O.inc.set u.val (finite x) u.isLt }

/-- A write to a filter section field (R144). -/
def writeSection (x : Word) (K : Section) : SectionReg → Section
  | .bp => { K with bp := finite x }
  | .bpM1 => { K with bpM1 := finite x }
  | .lp => { K with lp := finite x }
  | .lpM1 => { K with lpM1 := finite x }
  | .hp => { K with hp := finite x }

/-- A write to a filter field (R144). -/
def writeFlt (x : Word) (F : Flt) : FltReg → Flt
  | .base => { F with base := finite x }
  | .mod => { F with mod := finite x }
  | .last => { F with last := finite x }
  | .flags => { F with valid := x.getLsbD 0 }
  | .hz => { F with hz := finite x }
  | .coef => { F with coef := clamp x f0 coefMax }
  | .res => { F with res := clamp x f0 f2 }
  | .sec k r => { F with sec := vmod F.sec k (fun K => writeSection x K r) }

/-- A write to a voice field (R141-R145): MM_COUNT, STATUS, LIVE and LIST are read-only. -/
def writeVoice (x : Word) (V : Voice) : VoiceReg → Voice
  | .note => { V with note := clamp x f0 f127 }
  | .vel => { V with vel := x.extractLsb' 0 7 }
  | .amp => { V with amp := clamp x f0 f1 }
  | .slots => { V with slots := x.extractLsb' 0 NSLOT }
  | .mmCount => V
  | .status => V
  | .env e r => { V with env := vmod V.env e (fun E => writeEnv x E r) }
  | .osc o r => { V with osc := vmod V.osc o (fun O => writeOsc x O r) }
  | .flt r => { V with flt := writeFlt x V.flt r }
  | .live _ => V
  | .listIdx _ => V
  | .listDepth _ => V

/-- A write to a patch register, the depth table or another location, through its write filter (R101, R202).
Read-only locations ignore it. CMD is not written here: its word goes to the command decoder. -/
def writeLoc (s : State) (x : Word) : Loc → State
  | .id | .version | .cfg0 | .cfg1 | .cfg2 | .status | .cmd | .result | .errCause | .errInfo
  | .errLoc | .sampleIdx | .voiceFree _ => s
  | .arg k => { s with arg := s.arg.set k.val x k.isLt }
  | .irqStatus => { s with irqStatus := s.irqStatus &&& ~~~(x.extractLsb' 0 3) }
  | .irqEnable => { s with irqEnable := x.extractLsb' 0 3 }
  | .sampleRate => { s with sampleRate := clamp x f8000 f192000 }
  | .blockLen => { s with blockLen := x }
  | .midiCount => { s with midiCount := x }
  | .atmCount => { s with atmCount := x }
  | .pitchBend => { s with pitchBend := clamp x fNeg48 f48 }
  | .wtCtrl => { s with swapReq := x.getLsbD 1 }
  | .wtLock => { s with wtLock := x.getLsbD 0 }
  | .wtBlen bank =>
    if bank then { s with wtBlen1 := uclamp x 1#32 (BitVec.ofNat 32 WT_LEN) }
    else { s with wtBlen0 := uclamp x 1#32 (BitVec.ofNat 32 WT_LEN) }
  | .envPatch e r =>
    { s with patch := { s.patch with env := vmod s.patch.env e (fun p => writeEnvPatch x p r) } }
  | .oscPatch o r =>
    { s with patch := { s.patch with osc := vmod s.patch.osc o (fun p => writeOscPatch o x p r) } }
  | .fltCfg => { s with patch := { s.patch with flt := writeFltCfg x s.patch.flt } }
  | .fltCutoff => { s with patch := { s.patch with flt := { s.patch.flt with cutoff := clamp x f0 f127 } } }
  | .fltResDb =>
    { s with patch := { s.patch with flt := { s.patch.flt with resDb := clamp x fNeg30 fNegTenth } } }
  | .fltEqGainDb =>
    { s with patch := { s.patch with flt := { s.patch.flt with eqGainDb := clamp x fNeg24 f24 } } }
  | .fltEnvAmt =>
    { s with patch := { s.patch with flt := { s.patch.flt with envAmt := clamp x fNeg127 f127 } } }
  | .slotActive => { s with patch := { s.patch with slotActive := x.extractLsb' 0 NSLOT } }
  | .mmBase d => { s with patch := { s.patch with mmBase := s.patch.mmBase.set d.val (finite x) d.isLt } }
  | .macroVal k =>
    { s with patch := { s.patch with macroVal := s.patch.macroVal.set k.val (finite x) k.isLt } }
  | .lfoIn => { s with patch := { s.patch with lfoIn := clamp x fNeg1 f1 } }
  | .fastRTime => { s with patch := { s.patch with fastRTime := clamp x f0 f60 } }
  | .waitSamples => { s with patch := { s.patch with waitSamples := uclamp x 1#32 0xFFFFFFFF#32 } }
  | .envDbFloor => { s with patch := { s.patch with envDbFloor := clamp x fNeg96 fNeg1 } }
  | .cc i => { s with cc := s.cc.set i.val (finite x) i.isLt }
  | .depth r => { s with depth := s.depth.set r.val (finite x) r.isLt }
  | .midiQueue j hi => setRamWord (queueAddr .midi j.val + (if hi then 4 else 0)) x s
  | .atmQueue j hi => setRamWord (queueAddr .automation j.val + (if hi then 4 else 0)) x s
  | .out i => setRamWord (outAddr i.val) x s
  | .wt bank i => setRamWord (wtAddr bank i.val) x s
  | .voice v r => modVoice v (fun V => writeVoice x V r) s

/-- The targets a bus master may write while a block runs (attribute B; R212): CMD, the interrupt and
handoff registers, and the length and words of the inactive bank. -/
def writableWhileBusy (s : State) : Loc → Bool
  | .cmd | .irqStatus | .irqEnable | .wtCtrl | .wtLock => true
  | .wtBlen bank => bank != s.activeBank
  | .wt bank _ => bank != s.activeBank
  | _ => false

end Sys2Proof.Machine
end

