-- ==== Sys2Proof/Machine/Scheduler.lean ====
section
/-! DEFINITION. The render scheduler's parts that instructions name: RUN's validation and block start, the
note operations, event dispatch, the global commands and the voice chain (44_scheduler.md R800-R846). -/

namespace Sys2Proof.Machine

open Sys2Proof.Config

/-! ### RUN: validation and block start -/

/-- What a failed check of RUN's validation reports (R802). -/
structure Violation where
  cause : Cause
  info : Word
  loc : Word
deriving DecidableEq, Repr

/-- The queue and type check, which also yields the event (R321, R802). -/
def checkType (q : Queue) (w0 w1 : Word) (bad : Cause → Violation) : Except Violation Instr :=
  match decodeEvent q w0 w1 with
  | .ok i => .ok i
  | .error _ => .error (bad .badEventType)

/-- The checks of one entry, in order; `last` is the previous entry's tick (R802). It answers the entry's tick. -/
def checkEntry (s : State) (q : Queue) (j : Nat) (last : Nat) : Except Violation Nat :=
  let w0 := entryWord0 s q j
  let bad := fun c => { cause := c, info := w0, loc := entryLoc q j : Violation }
  match checkType q w0 (entryWord1 s q j) bad with
  | .error e => .error e
  | .ok i =>
    if s.blockLen.toNat ≤ (tickOf w0).toNat then .error (bad .eventTickRange)
    else if (tickOf w0).toNat < last then .error (bad .eventTickOrder)
    else if eventTargetValid i = false then .error (bad .badEventTarget)
    else if eventValueValid i = false then .error (bad .badEventValue)
    else .ok (tickOf w0).toNat

/-- The checks of `n` entries from entry `j` on; it answers the last tick (R802). -/
def checkEntries (s : State) (q : Queue) : (n j last : Nat) → Except Violation Nat
  | 0, _, last => .ok last
  | n + 1, j, last =>
    match checkEntry s q j last with
    | .error e => .error e
    | .ok t => checkEntries s q n (j + 1) t

/-- RUN's validation (R802): the first failure, or the last ticks of both queues. -/
def validate (s : State) : Except Violation (Nat × Nat) :=
  if s.blockLen = 0#32 ∨ MAX_BLOCK < s.blockLen.toNat then
    .error { cause := .badBlockLen, info := s.blockLen, loc := 0#32 }
  else if EVQ_CAP < s.midiCount.toNat then
    .error { cause := .eventOverflow, info := s.midiCount, loc := entryLoc .midi 0 }
  else if EVQ_CAP < s.atmCount.toNat then
    .error { cause := .eventOverflow, info := s.atmCount, loc := entryLoc .automation 0 }
  else
    match checkEntries s .midi s.midiCount.toNat 0 0 with
    | .error e => .error e
    | .ok tm =>
      match checkEntries s .automation s.atmCount.toNat 0 0 with
      | .error e => .error e
      | .ok ta => .ok (tm, ta)

/-- Block start (R803), with the last validated ticks in the hidden LASTTICK registers (R105). DESIGN CHOICE for
LASTTICK, unsafe: log entry 6. -/
def startBlock (ticks : Nat × Nat) (s : State) : State :=
  { s with busy := true, schedI := 0#32, mcur := 0#32, acur := 0#32,
           lastTickM := BitVec.ofNat 32 ticks.1, lastTickA := BitVec.ofNat 32 ticks.2 }

/-- RUN's effect when accepted: validation, then the block start (R801). -/
def runCommand (s : State) : State :=
  match validate s with
  | .error e => raise e.cause e.info e.loc s
  | .ok ticks => startBlock ticks s

/-! ### Note operations -/

/-- ENV_SET_TIMES, the delay and hold counts and the trigger of one envelope at note-on (R830). -/
def noteOnEnv (sr floor : F32) (p : EnvPatch) (E : Env) : Env :=
  let E' := envSetDelayHold p.delay p.hold
    (envSetTimes sr floor p.attack p.decay p.sustainDb p.release p.mode E)
  if 0#32 < p.delay then envTriggerDelayed E' else envRetrigger E'

/-- The envelopes of a voice at note-on, each from its patch group (R830). -/
def noteOnEnvs (sr : F32) (p : Patch) (env : Vector Env NENV) : Vector Env NENV :=
  (List.finRange NENV).foldl (fun es e => vmod es e (noteOnEnv sr p.envDbFloor p.env[e])) env

/-- NOTE_ON_OP on one voice, up to the compaction (R830). -/
def noteOnVoice (sr : F32) (p : Patch) (note vel : Nat) (V : Voice) : Voice :=
  { V with
    note := fOfNat note
    vel := BitVec.ofNat 7 vel
    amp := fDiv (fOfNat vel) f127
    osc := vmap oscReset V.osc
    flt := fltReset V.flt
    env := noteOnEnvs sr p V.env }

/-- NOTE_ON_OP(v, note, vel) (R830). -/
def noteOnOp (v : Fin NVOICE) (note vel : Nat) (s : State) : State :=
  compactVoice v (modVoice v (noteOnVoice s.sampleRate s.patch note vel) s)

/-- NOTE_OFF_OP(v, fast) (R832). -/
def noteOffOp (v : Fin NVOICE) (fast : Bool) (s : State) : State :=
  let f := if fast then envFastRelease s.sampleRate s.patch.fastRTime else envRelease
  modVoice v (fun V => { V with env := vmap f V.env }) s

/-! ### The voice chain -/

/-- Step 6 of the voice chain: the oscillator mix (R810). -/
def voiceMix (p : Patch) (V : Voice) : F32 :=
  fAdd (fMul (fMul p.osc[0].gain V.env[2].out) V.osc[0].out)
       (fMul (fMul p.osc[1].gain V.env[3].out) V.osc[1].out)

/-- Step 7 of the voice chain before FLT_STEP: the filter's controls for this sample (R810). -/
def voiceFltControl (sr : F32) (p : Patch) (V : Voice) : Flt :=
  fltSetRes p.flt.resDb (fltSetCutoff sr p.flt.os
    (fltAddMod (fMul p.flt.envAmt V.env[1].out) { fltSetBase p.flt.cutoff V.flt with mod := f0 }))

/-- Steps 1-4 of the voice chain: pitch, FM and the oscillators, the master before the slave (R810). -/
def voiceOscillators (v : Fin NVOICE) (s : State) : State :=
  let pitch := fAdd s.voice[v].note s.pitchBend
  let s := setPitch v 0 s.patch.osc[0].spread (fAdd pitch s.patch.osc[0].tune) s
  let s := setPitch v 1 s.patch.osc[1].spread (fAdd pitch s.patch.osc[1].tune) s
  stepOsc v 1 (stepOsc v 0 (mixFm v 1 (mixFm v 0 s)))

/-- Step 5 of the voice chain: every envelope, in order (R810). -/
def voiceEnvelopes (v : Fin NVOICE) (s : State) : State :=
  (List.finRange NENV).foldl (fun s e => stepEnv v e s) s

/-- Steps 6 and 7 of the voice chain: the filter control and its step on the mix (R810). -/
def voiceFilter (v : Fin NVOICE) (s : State) : F32 × State :=
  let V := s.voice[v]
  let r := fltStep s.patch.flt (voiceMix s.patch V) (voiceFltControl s.sampleRate s.patch V)
  (r.2, modFlt v (fun _ => r.1) s)

/-- Step 10 of the voice chain: the final gain (R810). The effects stage, step 9, is a bypass (R730). -/
def voiceGain (y : F32) (V : Voice) : F32 := fMul (fMul y V.env[0].out) V.amp

/-- VOICE_STEP(v) (R810): its output and the state after it. -/
def voiceStep (v : Fin NVOICE) (s : State) : F32 × State :=
  let r := voiceFilter v (voiceEnvelopes v (voiceOscillators v s))
  let s' := applyVoice v r.2
  (voiceGain r.1 s'.voice[v], s')

/-! ### Global and voice-level commands -/

/-- NOP (R840): accepted in every state, no effect. -/
def execNop (s : State) : Host.Outcome State Fault Refusal := .next s

/-- RUN (R801). -/
def execRun (s : State) : Host.Outcome State Fault Refusal :=
  .next (acceptG (encodeHead .run) runCommand s)

/-- PANIC (R841): while busy it waits for the next sample; in the fault state it is discarded (R302). -/
def execPanic (s : State) : Host.Outcome State Fault Refusal :=
  .next (if s.fault then s else if s.busy then { s with panicPend := true } else panicKill s)

/-- ALL_NOTES_OFF (R842). -/
def execAllNotesOff (s : State) : Host.Outcome State Fault Refusal :=
  .next (acceptG (encodeHead .allNotesOff) (modAllEnvs envRelease) s)

/-- ERR_CLEAR (R844): executed in the fault state too (R302); CMD_BUSY while a block runs. -/
def execErrClear (s : State) : Host.Outcome State Fault Refusal :=
  .next (if s.fault then clearFault s
    else if s.busy then raiseAccess .cmdBusy (encodeHead .errClear) s
    else clearFault s)

/-- NOTE_ON (R830): ARG0 note and ARG1 velocity, each clamped to 0..127. -/
def execNoteOn (voice : BitVec 8) (unit : BitVec 4) (s : State) : Host.Outcome State Fault Refusal :=
  .next (acceptVU (encodeHead (.noteOn voice unit)) voice unit 1
    (fun v _ s => noteOnOp v (uclamp s.arg[0] 0#32 127#32).toNat (uclamp s.arg[1] 0#32 127#32).toNat s) s)

/-- NOTE_OFF (R832). -/
def execNoteOff (voice : BitVec 8) (unit : BitVec 4) (fast : Bool) (s : State) :
    Host.Outcome State Fault Refusal :=
  .next (acceptVU (encodeHead (.noteOff voice unit fast)) voice unit 1 (fun v _ => noteOffOp v fast) s)

/-! ### Events -/

/-- An operation on the voice TARGET names; validation has checked that it exists (R802, R820). DESIGN CHOICE for a
voice that does not exist, unsafe: log entry 7. -/
def onVoice (target : BitVec 16) (f : Fin NVOICE → State → State) (s : State) : State :=
  if h : target.toNat < NVOICE then f ⟨target.toNat, h⟩ s else s

/-- MIDI NOTE_ON event (R821): VALUE[6:0] note, VALUE[14:8] velocity. -/
def execEvNoteOn (_tick : BitVec 12) (target : BitVec 16) (value : Word) (s : State) :
    Host.Outcome State Fault Refusal :=
  .next (onVoice target
    (fun v => noteOnOp v (value.extractLsb' 0 7).toNat (value.extractLsb' 8 7).toNat) s)

/-- MIDI NOTE_OFF event (R822): VALUE[0] FAST. -/
def execEvNoteOff (_tick : BitVec 12) (target : BitVec 16) (value : Word) (s : State) :
    Host.Outcome State Fault Refusal :=
  .next (onVoice target (fun v => noteOffOp v (value.getLsbD 0)) s)

/-- MIDI CONTROLLER event (R823): CC[TARGET] ← FINITE(VALUE). -/
def execEvControllerM (_tick : BitVec 12) (target : BitVec 16) (value : Word) (s : State) :
    Host.Outcome State Fault Refusal :=
  .next (if h : target.toNat < NCC then { s with cc := s.cc.set target.toNat (finite value) h } else s)

/-- MIDI PITCH_BEND event (R825). -/
def execEvPitchBend (_tick : BitVec 12) (_target : BitVec 16) (value : Word) (s : State) :
    Host.Outcome State Fault Refusal :=
  .next { s with pitchBend := clamp value fNeg48 f48 }

/-- Automation CONTROLLER event (R824): the register at 4 × TARGET takes VALUE through its write filter. -/
def execEvAutomation (_tick : BitVec 12) (target : BitVec 16) (value : Word) (s : State) :
    Host.Outcome State Fault Refusal :=
  .next (match automationTarget target with
    | some l => writeLoc s value l
    | none => s)

end Sys2Proof.Machine
end

