-- ==== Sys2Proof/Machine/Dispatch.lean ====
section
/-! DEFINITION. exec: one arm per instruction, each one call of its meaning. -/

namespace Sys2Proof.Machine

def exec (i : Instr) (s : State) : Host.Outcome State Fault Refusal :=
  match i with
  | .nop => Sys2Proof.Machine.execNop s
  | .run => Sys2Proof.Machine.execRun s
  | .panic => Sys2Proof.Machine.execPanic s
  | .allNotesOff => Sys2Proof.Machine.execAllNotesOff s
  | .errClear => Sys2Proof.Machine.execErrClear s
  | .noteOn v u => Sys2Proof.Machine.execNoteOn v u s
  | .noteOff v u fast => Sys2Proof.Machine.execNoteOff v u fast s
  | .envRetrigger v u => Sys2Proof.Machine.execEnvRetrigger v u s
  | .envRelease v u => Sys2Proof.Machine.execEnvRelease v u s
  | .envFastRelease v u => Sys2Proof.Machine.execEnvFastRelease v u s
  | .envKill v u => Sys2Proof.Machine.execEnvKill v u s
  | .envSetTimes v u mode => Sys2Proof.Machine.execEnvSetTimes v u mode s
  | .envStep v u => Sys2Proof.Machine.execEnvStep v u s
  | .envTriggerDelayed v u => Sys2Proof.Machine.execEnvTriggerDelayed v u s
  | .envSetDelayHold v u => Sys2Proof.Machine.execEnvSetDelayHold v u s
  | .oscSetUnisonPitch v u => Sys2Proof.Machine.execOscSetUnisonPitch v u s
  | .oscStep v u => Sys2Proof.Machine.execOscStep v u s
  | .oscReset v u => Sys2Proof.Machine.execOscReset v u s
  | .oscFmMix v u => Sys2Proof.Machine.execOscFmMix v u s
  | .fltSetCutoffBase v u => Sys2Proof.Machine.execFltSetCutoffBase v u s
  | .fltAddCutoffMod v u => Sys2Proof.Machine.execFltAddCutoffMod v u s
  | .fltSetCutoff v u => Sys2Proof.Machine.execFltSetCutoff v u s
  | .fltSetResonance v u => Sys2Proof.Machine.execFltSetResonance v u s
  | .fltStep v u => Sys2Proof.Machine.execFltStep v u s
  | .fltReset v u => Sys2Proof.Machine.execFltReset v u s
  | .mmCompact v u => Sys2Proof.Machine.execMmCompact v u s
  | .mmApply v u => Sys2Proof.Machine.execMmApply v u s
  | .evNoteOn tick target value => Sys2Proof.Machine.execEvNoteOn tick target value s
  | .evNoteOff tick target value => Sys2Proof.Machine.execEvNoteOff tick target value s
  | .evControllerM tick target value => Sys2Proof.Machine.execEvControllerM tick target value s
  | .evPitchBend tick target value => Sys2Proof.Machine.execEvPitchBend tick target value s
  | .evAutomation tick target value => Sys2Proof.Machine.execEvAutomation tick target value s

end Sys2Proof.Machine
end

