-- ==== Sys2Proof/Machine/Bus.lean ====
section
/-! DEFINITION. One access of a bus master and the reset input (20_memory.md R201-R204, R212, R232;
30_encoding.md R301 steps 1-3; 60_exceptions.md R916; 70_reset_and_hazards.md R1000). -/

namespace Sys2Proof.Machine

open Sys2Proof.Config

/-- addr[1:0] ≠ 0 (R203). -/
def misaligned (a : Word) : Bool := a.extractLsb' 0 2 != 0#2

/-- The word on the bus after a read. -/
def setBusData (w : Word) (s : State) : State := { s with busData := w }

/-- A faulting read: it returns 0 (R203, R204, R910). -/
def faultRead (c : Cause) (a : Word) (s : State) : State := setBusData 0#32 (raiseAccess c a s)

/-- The side effect of a read: reading WT_LOCK sets LOCK (R207, R232). -/
def readEffect (l : Loc) (s : State) : State :=
  match l with
  | .wtLock => { s with wtLock := true }
  | _ => s

/-- MemRead(a, 4) (R201). The value returned stands in `busData`. -/
def busRead (a : Word) (s : State) : State :=
  if misaligned a then faultRead .busAlign a s
  else
    match decodeAddr a.toNat with
    | none => faultRead .busUnmapped a s
    | some l => setBusData (readLoc s l) (readEffect l s)

/-- The command decoder receives a word (R301): a word that is no instruction is discarded in the fault
state and raises ILLEGAL_COMMAND otherwise; any other runs, with its own acceptance checks. -/
def commandWrite (c : Word) (s : State) : Host.Outcome State Fault Refusal :=
  match decodeCommand c with
  | .ok i => exec i s
  | .error _ => .next (if s.fault then s else raiseAccess .illegalCommand c s)

/-- A write to a mapped location that passed the checks (R202). -/
def storeLoc (l : Loc) (x : Word) (s : State) : Host.Outcome State Fault Refusal :=
  match l with
  | .cmd => commandWrite x s
  | _ => .next (writeLoc s x l)

/-- MemWrite(a, 4, x) (R202), with the check order of R916. -/
def busWrite (a x : Word) (s : State) : Host.Outcome State Fault Refusal :=
  if misaligned a then .next (raiseAccess .busAlign a s)
  else
    match decodeAddr a.toNat with
    | none => .next (raiseAccess .busUnmapped a s)
    | some l =>
      if s.busy && !writableWhileBusy s l then .next (raiseAccess .busyWrite a s)
      else storeLoc l x s

/-- The reset input (R1000): every register at its reset value, RAM free again. The turns still to come are
the other agents' and stay. DESIGN CHOICE, safe: log entry 12. -/
def resetInput (s : State) : State := { State.reset with agenda := s.agenda, epoch := s.epoch + 1 }

end Sys2Proof.Machine
end

