-- ==== Sys2Proof/Machine/Sample.lean ====
section
/-! DEFINITION. One sample of a block: the swap check, the sample's events, a pending panic, the voices, the
output word and the block end (44_scheduler.md R805-R807, R811; 20_memory.md R233). -/

namespace Sys2Proof.Machine

open Sys2Proof.Config

/-- Go on from a next state. -/
def bindNext (o : Host.Outcome State Fault Refusal) (f : State → Host.Outcome State Fault Refusal) :
    Host.Outcome State Fault Refusal :=
  match o with
  | .next s => f s
  | .fault r => .fault r
  | .refused r => .refused r

/-- Step 1: the wavetable swap check (R233). -/
def swapCheck (s : State) : State :=
  if s.swapReq && !s.wtLock then
    { s with activeBank := !s.activeBank, swapReq := false, irqStatus := irqSetSwapped s.irqStatus }
  else s

/-- The number of entries of a queue: MIDI_COUNT or ATM_COUNT (R118). -/
def queueCount : Queue → State → Word
  | .midi, s => s.midiCount
  | .automation, s => s.atmCount

/-- The next unread entry of a queue: MCUR or ACUR (R105). -/
def cursor : Queue → State → Word
  | .midi, s => s.mcur
  | .automation, s => s.acur

/-- The cursor of a queue moved past one entry. -/
def advance : Queue → State → State
  | .midi, s => { s with mcur := s.mcur + 1#32 }
  | .automation, s => { s with acur := s.acur + 1#32 }

/-- DISPATCH of entry `j`: the event it encodes runs (R820). Validation has checked that there is one. DESIGN CHOICE
for an entry that is none, unsafe: log entry 7. -/
def dispatch (q : Queue) (j : Nat) (s : State) : Host.Outcome State Fault Refusal :=
  match decodeEvent q (entryWord0 s q j) (entryWord1 s q j) with
  | .ok i => exec i s
  | .error _ => .next s

/-- The entry at the cursor is due at this sample (R805 step 2). -/
def entryDue (q : Queue) (s : State) : Bool :=
  (tickOf (entryWord0 s q (cursor q s).toNat)).toNat == s.schedI.toNat

/-- Step 2 for one queue with at most `n` entries left: every due entry in order (R805). -/
def drain (q : Queue) : Nat → State → Host.Outcome State Fault Refusal
  | 0, s => .next s
  | n + 1, s =>
    if entryDue q s then
      bindNext (dispatch q (cursor q s).toNat s) (fun s' => drain q n (advance q s'))
    else .next s

/-- Step 2 for one queue (R805). -/
def drainQueue (q : Queue) (s : State) : Host.Outcome State Fault Refusal :=
  drain q ((queueCount q s).toNat - (cursor q s).toNat) s

/-- Step 3: a pending panic is applied after the events and before the voices (R805, R841). -/
def applyPanic (s : State) : State :=
  if s.panicPend then { panicKill s with panicPend := false } else s

/-- Step 4 for one voice: it is stepped and added in only if it is active now (R805, R806). -/
def renderVoice (st : F32 × State) (v : Fin NVOICE) : F32 × State :=
  if voiceActive st.2.voice[v] then
    let r := voiceStep v st.2
    (fAdd st.1 r.1, r.2)
  else st

/-- Step 4: the sum of the active voices, from +0.0 in increasing index (R805, R811). -/
def render (s : State) : F32 × State := (List.finRange NVOICE).foldl renderVoice (f0, s)

/-- Step 5: OUT[i] ← acc (R805). OUT has MAX_BLOCK words (R135). DESIGN CHOICE past its end, which no run reaches,
unsafe: log entry 14. -/
def storeOut (i : Nat) (acc : F32) (s : State) : State :=
  if i < MAX_BLOCK then setRamWord (outAddr i) acc s else s

/-- Block end (R807). -/
def blockEnd (s : State) : State := { s with busy := false, irqStatus := irqSetDone s.irqStatus }

/-- Steps 5-7: the output word, the sample counter and, after the last sample, the block end (R805, R807). -/
def finishSample (acc : F32) (s : State) : State :=
  let s' := { storeOut s.schedI.toNat acc s with schedI := s.schedI + 1#32 }
  if s.schedI.toNat + 1 = s.blockLen.toNat then blockEnd s' else s'

/-- Steps 3-7 of a sample (R805). -/
def soundSample (s : State) : State :=
  let r := render (applyPanic s)
  finishSample r.1 r.2

/-- One sample of the running block (R805). -/
def sampleStep (s : State) : Host.Outcome State Fault Refusal :=
  bindNext (drainQueue .midi (swapCheck s)) fun s' =>
    bindNext (drainQueue .automation s') fun s'' => .next (soundSample s'')

end Sys2Proof.Machine
end

