-- ==== Sys2Proof/Machine/Step.lean ====
section
/-! DEFINITION. step: the next turn of the total order of the agents' steps (20_memory.md R240, R241), and how
an instruction is placed where step takes its next one. -/

namespace Sys2Proof.Machine

/-- The render scheduler's turn: the next sample while a block runs; an idle engine holds its state (R946). -/
def scheduler (s : State) : Host.Outcome State Fault Refusal :=
  if s.busy then sampleStep s else .next s

/-- One turn. -/
def takeTurn (t : Turn) (s : State) : Host.Outcome State Fault Refusal :=
  match t with
  | .read a => .next (busRead a s)
  | .write a x => busWrite a x s
  | .sample => scheduler s
  | .reset => .next (resetInput s)

/-- One step: the first turn of the agenda; with none left no access is to come, and the scheduler runs a
started block to its end (R240, R241). DESIGN CHOICE, safe: log entry 3. -/
def step (s : State) : Host.Outcome State Fault Refusal :=
  match s.agenda with
  | [] => scheduler s
  | t :: rest => takeTurn t { s with agenda := rest }

/-- The bus address of CMD (R113). -/
def cmdAddr : Word := 0x018#32

/-- `s` with a host's write of the command word `c` as its next turn (R301). -/
def State.withCommand (s : State) (c : Word) : State := { s with agenda := .write cmdAddr c :: s.agenda }

/-- `s` with a block whose current sample is the tick of the event (w0, w1), that event the only queue
entry, and the scheduler's turn next (R805). -/
def State.withEvent (s : State) (q : Queue) (w0 w1 : Word) : State :=
  let one : Queue → Word := fun p => if p = q then 1#32 else 0#32
  { s with
    ram := memPutWord (memPutWord s.ram (queueAddr q 0) w0) (queueAddr q 0 + 4) w1
    midiCount := one .midi
    atmCount := one .automation
    mcur := 0#32
    acur := 0#32
    busy := true
    schedI := (tickOf w0).setWidth 32
    blockLen := (tickOf w0).setWidth 32 + 1#32
    agenda := .sample :: s.agenda }

/-- `s` with the instruction of the opcode table's word `w` where the next step takes its instruction: a
command as the next write to CMD, an event as the one due entry of its queue. DESIGN CHOICE, safe: log entry 9. -/
def State.withFetchWord (s : State) (nbits w : Nat) : State :=
  match tablePort (tableWord0 nbits w) with
  | .cmd => s.withCommand (tableWord0 nbits w)
  | .queue q => s.withEvent q (tableWord0 nbits w) (tableWord1 nbits w)

end Sys2Proof.Machine
end

