-- ==== Sys2Proof/Safety.lean ====
section
/-! DEFINITION. What counts as a safe run, and the terms the statements use: transcriptions of the spec's tables
and ranges that do not go through the model's own decoder, address map or validation. -/

namespace Sys2Proof.Safety

open Sys2Proof.Machine Sys2Proof.Config

/-! ### States and parts of a state -/

/-- Commands are accepted: no fault is recorded and no block runs (R301). -/
def Accepting (s : State) : Prop := s.fault = false ∧ s.busy = false

/-- The next turn is the scheduler's: it stands first among the turns still to come, or none is left (R240, R241;
log entry 3). -/
def SchedulerNext (s : State) : Prop := s.agenda = [] ∨ s.agenda.head? = some .sample

/-- `s` with its next turn taken from the agenda. -/
def turnTaken (s : State) : State := { s with agenda := s.agenda.tail }

/-- A step that does not stop; a run is safe if all its steps are (R902: a model never stops). -/
def SafeStep (s : State) : Prop := ∃ t, step s = .next t

/-- `s` with V for voice v. -/
def withVoice (s : State) (v : Fin NVOICE) (V : Voice) : State :=
  { s with voice := s.voice.set v.val V v.isLt }

/-- `s` with E for E[v][e]. -/
def withEnv (s : State) (v : Fin NVOICE) (e : Fin NENV) (E : Env) : State :=
  withVoice s v { s.voice[v] with env := s.voice[v].env.set e.val E e.isLt }

/-- `s` with O for O[v][o]. -/
def withOsc (s : State) (v : Fin NVOICE) (o : Fin NOSC) (O : Osc) : State :=
  withVoice s v { s.voice[v] with osc := s.voice[v].osc.set o.val O o.isLt }

/-- `s` with F for F[v]. -/
def withFlt (s : State) (v : Fin NVOICE) (F : Flt) : State :=
  withVoice s v { s.voice[v] with flt := F }

/-- `s` with w in RESULT. -/
def withResult (s : State) (w : Word) : State := { s with result := w }

/-- lo ≤ x ≤ hi in the order of R19; no NaN is in a range. -/
def InRange (lo hi x : F32) : Prop := fLe lo x = true ∧ fLe x hi = true

/-! ### The spec's tables -/

/-- A row of R315: opcode, format VU or G, number of units, and the IMM bits the command uses (R313). -/
structure CommandRow where
  op : Nat
  vu : Bool
  units : Nat
  imm : Nat
deriving DecidableEq, Repr

/-- R315, with the flags of R313. -/
def commandTable : List CommandRow :=
  [ ⟨0x01, false, 0, 0⟩, ⟨0x02, false, 0, 0⟩, ⟨0x03, false, 0, 0⟩, ⟨0x04, false, 0, 0⟩,
    ⟨0x05, false, 0, 0⟩, ⟨0x06, true, 1, 0⟩, ⟨0x07, true, 1, 1⟩ ] ++
  [ ⟨0x10, true, 6, 0⟩, ⟨0x11, true, 6, 0⟩, ⟨0x12, true, 6, 0⟩, ⟨0x13, true, 6, 0⟩,
    ⟨0x14, true, 6, 1⟩, ⟨0x15, true, 6, 0⟩, ⟨0x16, true, 6, 0⟩, ⟨0x17, true, 6, 0⟩ ] ++
  [ ⟨0x20, true, 2, 0⟩, ⟨0x21, true, 2, 0⟩, ⟨0x22, true, 2, 0⟩, ⟨0x23, true, 2, 0⟩ ] ++
  [ ⟨0x30, true, 1, 0⟩, ⟨0x31, true, 1, 0⟩, ⟨0x32, true, 1, 0⟩, ⟨0x33, true, 1, 0⟩,
    ⟨0x34, true, 1, 0⟩, ⟨0x35, true, 1, 0⟩, ⟨0x40, true, 1, 0⟩, ⟨0x41, true, 1, 0⟩ ]

/-- The reserved bits of a command word that are 1 (R312): [23:0] in format G, the unused IMM bits in format VU. -/
def reservedBits (r : CommandRow) (c : Nat) : Nat :=
  if r.vu then c % 2 ^ 12 &&& (0xFFF ^^^ r.imm) else c % 2 ^ 24

/-- What the checks 2-6 of R301 report for the word `c`, if anything. -/
def commandFault (busy : Bool) (c : Nat) : Option Cause :=
  match commandTable.find? (fun r => r.op == c / 2 ^ 24) with
  | none => some .illegalCommand
  | some r =>
    if reservedBits r c ≠ 0 then some .illegalCommand
    else if busy = true ∧ r.op ≠ 0x01 ∧ r.op ≠ 0x03 then some .cmdBusy
    else if r.vu = true ∧ NVOICE ≤ c / 2 ^ 16 % 2 ^ 8 then some .badVoice
    else if r.vu = true ∧ r.units ≤ c / 2 ^ 12 % 2 ^ 4 then some .badUnit
    else none

/-- The mapped offsets of a voice block (R141-R145). -/
def voiceOffsetMapped (f : Nat) : Bool :=
  f ≤ 0x14
  || (0x040 ≤ f && f < 0x040 + 0x40 * NENV)
  || (0x200 ≤ f && f < 0x200 + 0x80 * NOSC
      && (f % 0x80 ≤ 0x0C || (0x40 ≤ f % 0x80 && f % 0x80 < 0x40 + 4 * NUNI_MAX)
          || (0x60 ≤ f % 0x80 && f % 0x80 < 0x60 + 4 * NUNI_MAX)))
  || (0x300 ≤ f && f ≤ 0x318)
  || (0x340 ≤ f && f < 0x340 + 0x20 * NSEC && f % 0x20 ≤ 0x10)
  || (0x400 ≤ f && f < 0x400 + 4 * NDEST)
  || (0x600 ≤ f && f < 0x600 + 8 * NROUTE)

/-- The mapped patch registers (R126-R130). -/
def patchMapped (a : Nat) : Bool :=
  (0x100 ≤ a && a < 0x100 + 0x20 * NENV && a % 0x20 ≤ 0x18)
  || (0x200 ≤ a && a < 0x200 + 0x20 * NOSC && a % 0x20 ≤ 0x14)
  || (0x280 ≤ a && a ≤ 0x290) || a == 0x2C0
  || (0x300 ≤ a && a < 0x300 + 4 * NDEST) || (0x380 ≤ a && a ≤ 0x39C)

/-- The modulation depth table (R132). -/
def depthMapped (a : Nat) : Bool := 0x800 ≤ a && a < 0x800 + 4 * NROUTE

/-- The four RAMs (R135). -/
def ramMapped (a : Nat) : Bool :=
  (0x2000 ≤ a && a < 0x2000 + 8 * EVQ_CAP) || (0x3000 ≤ a && a < 0x3000 + 8 * EVQ_CAP)
  || (0x4000 ≤ a && a < 0x4000 + 4 * MAX_BLOCK)
  || (0x8000 ≤ a && a < 0x8000 + 4 * WT_LEN) || (0xC000 ≤ a && a < 0xC000 + 4 * WT_LEN)

/-- The mapped word addresses, of a multiple of 4 (R220). -/
def mapped (a : Nat) : Bool :=
  a ≤ 0x58 || (0x60 ≤ a && a ≤ 0x6C) || (0x80 ≤ a && a ≤ 0x9C)
  || patchMapped a || (0x400 ≤ a && a < 0x400 + 4 * NCC) || depthMapped a || ramMapped a
  || (0x10000 ≤ a && a < 0x10000 + 0x1000 * NVOICE && voiceOffsetMapped (a % 0x1000))

/-- The targets a host may write while a block runs (R212). -/
def busyWritable (s : State) (a : Nat) : Bool :=
  a == 0x018 || a == 0x03C || a == 0x040 || a == 0x060 || a == 0x064
  || (if s.activeBank then a == 0x068 || (0x8000 ≤ a && a < 0x8000 + 4 * WT_LEN)
      else a == 0x06C || (0xC000 ≤ a && a < 0xC000 + 4 * WT_LEN))

/-! ### Events -/

/-- TICK of entry `j` of a queue (R320). -/
def entryTick (s : State) (q : Queue) (j : Nat) : Nat := (entryWord0 s q j).toNat / 2 ^ 16 % 2 ^ 12

/-- The entry at a queue's cursor, if one is left, is not due at this sample (R805 step 2). -/
def NoneDue (s : State) (q : Queue) : Prop :=
  (cursor q s).toNat < (queueCount q s).toNat → entryTick s q (cursor q s).toNat ≠ s.schedI.toNat

/-- TARGET is not valid for the queue and type (R322). -/
def badTarget (q : Queue) (type target : Nat) : Bool :=
  match q with
  | .midi => (type == 1 || type == 2) && NVOICE ≤ target || type == 3 && NCC ≤ target
  | .automation => !(patchMapped (4 * target) || depthMapped (4 * target))

/-- A reserved bit of VALUE is 1 (R322). -/
def badValue (q : Queue) (type value : Nat) : Bool :=
  match q with
  | .midi => type == 1 && (value / 2 ^ 15 != 0 || value / 2 ^ 7 % 2 != 0) || type == 2 && value / 2 != 0
  | .automation => false

/-- What R802's checks of entry `j` report, if anything; the previous tick is that of entry j − 1, or 0. -/
def entryFault (s : State) (q : Queue) (j : Nat) : Option Cause :=
  let w0 := (entryWord0 s q j).toNat
  let type := w0 / 2 ^ 28
  if (q = .midi ∧ (type = 0 ∨ 4 < type)) ∨ (q = .automation ∧ type ≠ 3) then some .badEventType
  else if s.blockLen.toNat ≤ entryTick s q j then some .eventTickRange
  else if j ≠ 0 ∧ entryTick s q j < entryTick s q (j - 1) then some .eventTickOrder
  else if badTarget q type (w0 % 2 ^ 16) = true then some .badEventTarget
  else if badValue q type (entryWord1 s q j).toNat = true then some .badEventValue
  else none

/-- The lengths RUN requires (R802, first three checks). -/
def LengthsValid (s : State) : Prop :=
  1 ≤ s.blockLen.toNat ∧ s.blockLen.toNat ≤ MAX_BLOCK ∧
  s.midiCount.toNat ≤ EVQ_CAP ∧ s.atmCount.toNat ≤ EVQ_CAP

/-! ### Operations as the rules write them -/

/-- The envelope ENV_SET_TIMES leaves (R410). -/
def timesSet (sr floor tA tD sustain tR : F32) (mode : Bool) (E : Env) : Env :=
  let a := fDiv f1 (fMul sr (clamp tA tMin tMax))
  let d := fDiv f1 (fMul sr (clamp tD tMin tMax))
  let r := fDiv f1 (fMul sr (clamp tR tMin tMax))
  { stage := E.stage, mode := mode, out := E.out, outDb := E.outDb, cnt := E.cnt
    aInc := a, dInc := d, rInc := r
    sLin := fMin (dbToLin (clamp sustain fNeg96 f0)) f1, sDb := clamp sustain fNeg96 f0
    aIncDb := fMul (fNeg floor) a, dIncDb := fMul (fNeg floor) d, rIncDb := fMul (fNeg floor) r
    delayN := E.delayN, holdN := E.holdN, thr := fMin (dbToLin floor) f1, dbFloor := floor }

/-- The stages below Release (R400). -/
def belowRelease (st : Stage) : Bool :=
  match st with
  | .delay | .attack | .hold | .decay | .sustain => true
  | .release | .wait | .off => false

/-- The envelope ENV_RELEASE leaves (R422). -/
def released (E : Env) : Env := { E with stage := if belowRelease E.stage then .release else E.stage }

/-- The envelope ENV_FAST_RELEASE leaves (R423). -/
def fastReleased (sr fastRTime : F32) (E : Env) : Env :=
  let r := fDiv f1 (fMul sr (clamp fastRTime tMin tMax))
  { E with rInc := r, rIncDb := fMul (fNeg E.dbFloor) r,
           stage := if belowRelease E.stage then .release else E.stage }

/-- The envelope ENV_KILL leaves (R424). -/
def killed (E : Env) : Env := { E with stage := .off, out := f0, outDb := E.dbFloor, cnt := 0#32 }

/-- The state after step 3 of a sample: a pending panic kills every envelope (R805, R841). -/
def panicApplied (s : State) : State :=
  if s.panicPend then
    { s with panicPend := false
             voice := Vector.ofFn fun v : Fin NVOICE =>
               { s.voice[v] with env := Vector.ofFn fun e : Fin NENV => killed s.voice[v].env[e] } }
  else s

/-- The oscillator OSC_RESET leaves (R545). -/
def oscCleared (O : Osc) : Osc :=
  { phase := Vector.replicate NUNI_MAX f0, out := f0, wrap := false, syncPh := f0, fmIn := f0, inc := O.inc }

/-- The filter FLT_RESET leaves (R640). -/
def fltCleared (F : Flt) : Flt :=
  { F with sec := Vector.replicate NSEC { bp := f0, bpM1 := f0, lp := f0, lpM1 := f0, hp := f0 },
           mod := f0, valid := false }

/-- The envelope NOTE_ON_OP leaves in role `e` (R830). -/
def noteOnEnvelope (s : State) (e : Fin NENV) (E : Env) : Env :=
  let p := s.patch.env[e]
  let T := timesSet s.sampleRate s.patch.envDbFloor p.attack p.decay p.sustainDb p.release p.mode E
  { T with delayN := p.delay, holdN := p.hold, out := f0, outDb := s.patch.envDbFloor, cnt := 0#32,
           stage := if 0 < p.delay.toNat then .delay else .attack }

/-- The ceiling of Attack (R432). -/
def atCeiling (E : Env) : Env :=
  { E with out := f1, outDb := f0, cnt := 0#32, stage := if 0 < E.holdN.toNat then .hold else .decay }

/-- Sustain entry (R434, R452). -/
def atSustain (E : Env) : Env := { E with out := E.sLin, outDb := E.sDb, stage := .sustain }

/-- INC(CNT) (R404). -/
def incCnt (c : Word) : Word := if c.toNat < 0xFFFFFFFF then c + 1#32 else c

/-- One linear-mode step, or a step of a stage that is the same in both modes (R430-R438). -/
def linearStep (waitSamples : Word) (E : Env) : Env :=
  match E.stage with
  | .delay =>
    if E.delayN.toNat ≤ (incCnt E.cnt).toNat then { E with stage := .attack, cnt := 0#32 }
    else { E with cnt := incCnt E.cnt }
  | .attack => if fLe f1 (fAdd E.out E.aInc) then atCeiling E else { E with out := fAdd E.out E.aInc }
  | .hold =>
    if E.holdN.toNat ≤ (incCnt E.cnt).toNat then { E with stage := .decay, cnt := 0#32 }
    else { E with cnt := incCnt E.cnt }
  | .decay => if fLe (fSub E.out E.dInc) E.sLin then atSustain E else { E with out := fSub E.out E.dInc }
  | .sustain => E
  | .release =>
    if fLe (fSub E.out E.rInc) f0 then
      { E with out := f0, outDb := E.dbFloor, stage := .wait, cnt := 0#32 }
    else { E with out := fSub E.out E.rInc }
  | .wait =>
    if waitSamples.toNat ≤ (incCnt E.cnt).toNat then { E with cnt := incCnt E.cnt, stage := .off }
    else { E with cnt := incCnt E.cnt }
  | .off => E

/-- One dB-mode step of Attack, Decay or Release in the dB region, OUT_DB > DB_FLOOR (R451-R453). -/
def dbRegionStep (E : Env) : Env :=
  match E.stage with
  | .attack =>
    let d := fAdd E.outDb E.aIncDb
    if fLe f0 d then atCeiling E
    else { E with outDb := d, out := fMax E.out (fMin (dbToLin d) f1) }
  | .decay =>
    let d := fSub E.outDb E.dIncDb
    if fLe d E.sDb then atSustain E
    else
      let o := if fLe d E.dbFloor then fMin E.out E.thr else fMin E.out (dbToLin d)
      if fLe o E.sLin then atSustain E
      else { E with outDb := if fLe d E.dbFloor then E.dbFloor else d, out := o }
  | .release =>
    let d := fSub E.outDb E.rIncDb
    if fLe d E.dbFloor then { E with outDb := E.dbFloor, out := fMin E.out E.thr }
    else { E with outDb := d, out := fMin E.out (dbToLin d) }
  | _ => E

/-- One dB-mode step of Attack, Decay or Release in the linear region, OUT_DB ≤ DB_FLOOR (R451-R453): as in
linear mode, but a rising level that reaches the threshold enters the dB region. -/
def dbLinearStep (waitSamples : Word) (E : Env) : Env :=
  let L := linearStep waitSamples E
  if E.stage = .attack ∧ L.stage = .attack ∧ fLe E.thr L.out = true then
    { L with outDb := fMax (linToDb L.out) E.dbFloor }
  else L

/-- The increment OSC_SET_UNISON_PITCH gives lane `u` of `n` (R510). -/
def lanePitchInc (sr : F32) (n : Nat) (spread base : F32) (u : Nat) : F32 :=
  let off := if n = 1 then f0
    else fMul (clamp spread f0 f12) (fDiv (fOfInt (2 * u - n + 1 : Int)) (fOfInt (2 * n - 2 : Int)))
  fDiv (noteToHz (clamp (fAdd base off) f0 f127)) sr

/-- The word of the active wavetable bank that WAVE(p) reads (R525, R231, R135). -/
def wavetableWord (s : State) (p : F32) : Word :=
  let base := if s.activeBank then 0xC000 else 0x8000
  let len := if s.activeBank then s.wtBlen1.toNat else s.wtBlen0.toNat
  let i := fFloor (fMul p (fOfNat len))
  ramWord s (base + 4 * (if len - 1 < i then len - 1 else i))

/-- WAVE(p) (R520, R525). -/
def waveShape (s : State) (w : Waveform) (p : F32) : F32 :=
  match w with
  | .off => 0x00000000#32
  | .sine => sine p
  | .saw => fSub (fMul f2 p) f1
  | .square => if fLt p fHalf then f1 else fNeg1
  | .triangle => if fLt p fHalf then fSub (fMul f4 p) f1 else fSub f3 (fMul f4 p)
  | .wavetable => finite (wavetableWord s p)

/-- A lane's own advance in OSC_STEP: the sum before its wrap (R540). -/
def laneSum (O : Osc) (u : Fin NUNI_MAX) : F32 :=
  fAdd O.phase[u] (clamp (fAdd O.inc[u] O.fmIn) f0 incMax)

/-- A lane's phase after OSC_STEP (R540, R550). -/
def laneAfter (sync : Bool) (master : Osc) (O : Osc) (u : Fin NUNI_MAX) : F32 :=
  if sync then master.syncPh
  else if fLe f1 (laneSum O u) then fSub (laneSum O u) f1 else laneSum O u

/-- The oscillator OSC_STEP leaves, with N active lanes (R540). -/
def oscStepped (wave : F32 → F32) (sync : Bool) (master : Osc) (n : Nat) (O : Osc) : Osc :=
  { out := fMul (((List.finRange NUNI_MAX).filter (fun u => u.val < n)).foldl
        (fun acc u => fAdd acc (wave (laneAfter sync master O u))) f0) (fDiv f1 (fOfNat n))
    wrap := fLe f1 (laneSum O 0)
    syncPh := laneAfter sync master O 0
    fmIn := O.fmIn
    phase := Vector.ofFn fun u => if u.val < n then laneAfter sync master O u else O.phase[u]
    inc := O.inc }

/-- OSF updates of a section with input x (R620, R631). -/
def sectionAfter (p : FltPatch) (x : F32) (F : Flt) (k : Fin NSEC) : Section :=
  (fun K =>
    let hp := dn (fSub x (fAdd (fMul K.bpM1 F.res) K.lpM1))
    let bp := dn (fAdd (fMul hp F.coef) K.bpM1)
    let lp := dn (fAdd (fMul bp F.coef) K.lpM1)
    ({ bp := bp, bpM1 := bp, lp := lp, lpM1 := lp, hp := hp } : Section))^[osFactor p.os] F.sec[k]

/-- The response of R621. -/
def response (p : FltPatch) (K : Section) : F32 :=
  match p.type with
  | .off => f0
  | .lp => K.lp
  | .hp => K.hp
  | .bp => K.bp
  | .notch => fAdd K.hp K.lp
  | .eq => fAdd (fAdd K.lp K.hp) (fMul K.bp (dbToLin p.eqGainDb))

/-- The sections and the output FLT_STEP leaves when TYPE is not OFF (R630). -/
def chainAfter (p : FltPatch) (x : F32) (F : Flt) : Vector Section NSEC × F32 :=
  let a := sectionAfter p x F 0
  let b := sectionAfter p a.lp F 1
  let c := sectionAfter p b.lp F 2
  match p.poles with
  | .two => (#v[a, F.sec[1], F.sec[2]], response p a)
  | .four => (#v[a, b, F.sec[2]], response p b)
  | .six => (#v[a, b, c], response p c)

/-- Routes in the order of compaction: slot, then control, then source (R710). -/
def routeBefore (a b : Route) : Prop :=
  a.slot < b.slot ∨ (a.slot = b.slot ∧ (a.control < b.control ∨ (a.control = b.control ∧ a.source < b.source)))

/-- A list entry names a slot, a control and a source that exist (R145, R721). -/
def routeInRange (r : Route) : Prop :=
  r.slot.toNat < NSLOT ∧ r.control.toNat < NCTRL ∧ r.source.toNat < NSRC

/-- The list MM_COMPACT leaves over the list `old` is `list` with `n` entries (R710, R702). -/
def Compacted (p : Patch) (depth : Vector F32 NROUTE) (old list : Vector Route NROUTE) (n : Nat) : Prop :=
  n ≤ NROUTE ∧
  (∀ i (hi : i < NROUTE), i < n → routeInRange list[i] ∧ p.slotActive.getLsbD list[i].slot.toNat = true ∧
    fEq list[i].depth f0 = false ∧
    ∀ h : (list[i].slot.toNat * NCTRL + list[i].control.toNat) * NSRC + list[i].source.toNat < NROUTE,
      depth[(list[i].slot.toNat * NCTRL + list[i].control.toNat) * NSRC + list[i].source.toNat] =
        list[i].depth) ∧
  (∀ i j (_ : i < j) (hj : j < NROUTE), j < n → routeBefore list[i] list[j]) ∧
  (∀ (s : Fin NSLOT) (c : Fin NCTRL) (k : Fin NSRC), p.slotActive.getLsbD s.val = true →
    fEq depth[routeIndex s c k] f0 = false →
    ∃ (i : Nat) (hi : i < NROUTE), i < n ∧ list[i].slot.toNat = s.val ∧ list[i].control.toNat = c.val ∧
      list[i].source.toNat = k.val) ∧
  (∀ i (hi : i < NROUTE), n ≤ i → list[i] = old[i])

/-- SRC_v(k) for k = 0 … 8, in the order of the table of R701. -/
def sources (p : Patch) (V : Voice) : List F32 :=
  [ V.env[0].out, V.env[1].out, p.lfoIn, fDiv V.note f127, fDiv (fOfNat V.vel.toNat) f127,
    p.macroVal[0], p.macroVal[1], p.macroVal[2], p.macroVal[3] ]

/-- The live value MM_APPLY gives destination (s, c) (R720). -/
def liveValue (p : Patch) (V : Voice) (s : Fin NSLOT) (c : Fin NCTRL) : F32 :=
  ((V.list.toList.take V.mmCount.toNat).filter
    (fun r => r.slot.toNat == s.val && r.control.toNat == c.val)).foldl
      (fun x r => fAdd x (fMul ((sources p V).getD r.source.toNat f0) r.depth)) p.mmBase[destIndex s c]

/-! ### Invariants -/

/-- The control state hangs together: a running block has a legal length and counts, its position is inside
it, and no fault is recorded (R105, R801, R910, R914); a panic waits only in a block (R841); the recorded
cause is NONE exactly when no fault is recorded (R910, R915). -/
def ControlConsistent (s : State) : Prop :=
  (s.busy = true → s.fault = false ∧ LengthsValid s ∧ s.schedI.toNat < s.blockLen.toNat ∧
    s.mcur.toNat ≤ s.midiCount.toNat ∧ s.acur.toNat ≤ s.atmCount.toNat) ∧
  s.schedI.toNat ≤ MAX_BLOCK ∧ s.mcur.toNat ≤ EVQ_CAP ∧ s.acur.toNat ≤ EVQ_CAP ∧
  (s.panicPend = true → s.busy = true) ∧ (s.fault = true ↔ s.errCause ≠ .none)

/-- RAM is in canonical form and lists only bytes of the four RAMs (R135). -/
def RamConfined (s : State) : Prop :=
  Memory.wf s.ram = true ∧ ∀ c ∈ s.ram, ramMapped c.1 = true

/-- Every filtered register outside the voices holds a value its write filter can store (R101, R117-R132). -/
def RegistersLegal (s : State) : Prop :=
  InRange f8000 f192000 s.sampleRate ∧ InRange fNeg48 f48 s.pitchBend ∧
  (1 ≤ s.wtBlen0.toNat ∧ s.wtBlen0.toNat ≤ WT_LEN) ∧ (1 ≤ s.wtBlen1.toNat ∧ s.wtBlen1.toNat ≤ WT_LEN) ∧
  (∀ i : Fin NCC, isFinite s.cc[i] = true) ∧ (∀ r : Fin NROUTE, isFinite s.depth[r] = true) ∧
  (∀ e : Fin NENV, InRange f0 f60 s.patch.env[e].attack ∧ InRange f0 f60 s.patch.env[e].decay ∧
    InRange fNeg96 f0 s.patch.env[e].sustainDb ∧ InRange f0 f60 s.patch.env[e].release) ∧
  (∀ o : Fin NOSC, 1 ≤ s.patch.osc[o].uni.toNat ∧ s.patch.osc[o].uni.toNat ≤ NUNI_MAX ∧
    InRange fNeg48 f48 s.patch.osc[o].tune ∧ InRange f0 f12 s.patch.osc[o].spread ∧
    InRange f0 f1 s.patch.osc[o].gain ∧ InRange f0 f1 s.patch.osc[o].fm0 ∧
    InRange f0 f1 s.patch.osc[o].fm1) ∧
  s.patch.osc[0].sync = false ∧
  InRange f0 f127 s.patch.flt.cutoff ∧ InRange fNeg30 fNegTenth s.patch.flt.resDb ∧
  InRange fNeg24 f24 s.patch.flt.eqGainDb ∧ InRange fNeg127 f127 s.patch.flt.envAmt ∧
  (∀ d : Fin NDEST, isFinite s.patch.mmBase[d] = true) ∧
  (∀ k : Fin NMACRO, isFinite s.patch.macroVal[k] = true) ∧
  InRange fNeg1 f1 s.patch.lfoIn ∧ InRange f0 f60 s.patch.fastRTime ∧
  1 ≤ s.patch.waitSamples.toNat ∧ InRange fNeg96 fNeg1 s.patch.envDbFloor

/-- Every stored phase is in [0, 1) (R541). -/
def PhasesInUnit (s : State) : Prop :=
  ∀ (v : Fin NVOICE) (o : Fin NOSC),
    InRange f0 incMax s.voice[v].osc[o].syncPh ∧
    ∀ u : Fin NUNI_MAX, InRange f0 incMax s.voice[v].osc[o].phase[u]

/-- Every modulation list fits and names only slots, controls and sources that exist (R146, R721). -/
def ListsValid (s : State) : Prop :=
  ∀ v : Fin NVOICE, s.voice[v].mmCount.toNat ≤ NROUTE ∧
    ∀ i : Fin NROUTE, i.val < s.voice[v].mmCount.toNat → routeInRange s.voice[v].list[i]

end Sys2Proof.Safety
end

