-- ==== Sys2Proof/Safety/Registers.lean ====
section
/-! DEFINITION. The registers the bus reaches, transcribed row by row from the tables of 10_state.md (R110-R132,
R141-R145): the address of each, the word a read returns and what a write stores, and their reset column. It does
not go through the model's address map, codes, reads or writes. -/

namespace Sys2Proof.Safety

open Sys2Proof.Machine Sys2Proof.Config

/-- A register: its address, the word a read of it returns, and the state a write to it leaves (R101). -/
structure Register where
  addr : Nat
  read : State → Word
  write : Word → State → State

/-- A register with attribute RO: a write is ignored (R101, R202). -/
def readOnly (addr : Nat) (read : State → Word) : Register := ⟨addr, read, fun _ s => s⟩

/-- A word made of fields, each given by its lowest bit and its value; the other bits are reserved and 0 (R101). -/
def packed (fields : List (Nat × Nat)) : Word :=
  BitVec.ofNat 32 (fields.foldl (fun w f => w + f.2 * 2 ^ f.1) 0)

/-- The value of bits [lo + n − 1 : lo] of a word. -/
def bits (x : Word) (lo n : Nat) : Nat := x.toNat / 2 ^ lo % 2 ^ n

/-! ### Codes, in their order -/

/-- STAGE 0-7 (R142). -/
def stages : List Stage := [.delay, .attack, .hold, .decay, .sustain, .release, .wait, .off]
/-- WAVE 0-5 (R127). -/
def waves : List Waveform := [.off, .sine, .saw, .square, .triangle, .wavetable]
/-- TYPE 0-5 (R128). -/
def fltTypes : List FltType := [.off, .lp, .hp, .bp, .notch, .eq]
/-- POLES 1-3 (R128). -/
def poleCounts : List Poles := [.two, .four, .six]
/-- OS 0-2 (R128). -/
def factors : List Oversampling := [.x1, .x2, .x4]
/-- ERR_CAUSE 0-14 (R901). -/
def causes : List Cause :=
  [ .none, .illegalCommand, .badVoice, .badUnit, .cmdBusy, .busyWrite, .busAlign, .busUnmapped,
    .badBlockLen, .eventOverflow, .badEventType, .eventTickRange, .eventTickOrder, .badEventTarget,
    .badEventValue ]

/-! ### Global registers (R110-R122), but for CMD and WT_LOCK -/

/-- ARG0-ARG3 (R114). -/
def argRegister (k : Fin 4) : Register :=
  ⟨0x01C + 4 * k.val, fun s => s.arg[k], fun x s => { s with arg := s.arg.set k.val x k.isLt }⟩

/-- VOICE_FREEw: bit j for voice 32w + j (R122). -/
def voiceFreeRegister (w : Fin 8) : Register :=
  readOnly (0x080 + 4 * w.val) fun s => packed ((List.range 32).map fun j =>
    (j, if h : 32 * w.val + j < NVOICE then
          (if s.voice[32 * w.val + j].env[0].stage = .off then 1 else 0) else 0))

/-- R110-R121. -/
def globalRegisters : List Register :=
  [ readOnly 0x000 fun _ => 0x41445352#32, readOnly 0x004 fun _ => 0x00000007#32,
    readOnly 0x008 fun _ => 0x00347010#32, readOnly 0x00C fun _ => 0x02001000#32,
    readOnly 0x010 fun _ => 0x00000400#32,
    readOnly 0x014 fun s => packed [(0, s.busy.toNat), (1, s.fault.toNat), (2, s.panicPend.toNat)],
    readOnly 0x02C fun s => s.result,
    readOnly 0x030 fun s => packed [(0, causes.idxOf s.errCause)],
    readOnly 0x034 fun s => s.errInfo, readOnly 0x038 fun s => s.errLoc ] ++
  [ ⟨0x03C, fun s => packed [(0, s.irqStatus.toNat)],
      fun x s => { s with irqStatus := s.irqStatus &&& ~~~(BitVec.ofNat 3 (bits x 0 3)) }⟩,
    ⟨0x040, fun s => packed [(0, s.irqEnable.toNat)],
      fun x s => { s with irqEnable := BitVec.ofNat 3 (bits x 0 3) }⟩,
    ⟨0x044, fun s => s.sampleRate, fun x s => { s with sampleRate := clamp x f8000 f192000 }⟩,
    ⟨0x048, fun s => s.blockLen, fun x s => { s with blockLen := x }⟩,
    ⟨0x04C, fun s => s.midiCount, fun x s => { s with midiCount := x }⟩,
    ⟨0x050, fun s => s.atmCount, fun x s => { s with atmCount := x }⟩,
    readOnly 0x054 fun s => s.schedI,
    ⟨0x058, fun s => s.pitchBend, fun x s => { s with pitchBend := clamp x fNeg48 f48 }⟩,
    ⟨0x060, fun s => packed [(0, s.activeBank.toNat), (1, s.swapReq.toNat)],
      fun x s => { s with swapReq := x.getLsbD 1 }⟩,
    ⟨0x068, fun s => s.wtBlen0, fun x s => { s with wtBlen0 := uclamp x 1#32 0x400#32 }⟩,
    ⟨0x06C, fun s => s.wtBlen1, fun x s => { s with wtBlen1 := uclamp x 1#32 0x400#32 }⟩ ]

/-! ### Patch registers (R126-R130), the CC table (R131) and the depth table (R132) -/

/-- `s` with p for the patch registers. -/
def withPatch (s : State) (p : Patch) : State := { s with patch := p }

/-- `s` with p for the patch group of envelope role e. -/
def withEnvPatch (s : State) (e : Fin NENV) (p : EnvPatch) : State :=
  withPatch s { s.patch with env := s.patch.env.set e.val p e.isLt }

/-- `s` with p for the patch group of oscillator o. -/
def withOscPatch (s : State) (o : Fin NOSC) (p : OscPatch) : State :=
  withPatch s { s.patch with osc := s.patch.osc.set o.val p o.isLt }

/-- `s` with p for the filter patch. -/
def withFltPatch (s : State) (p : FltPatch) : State := withPatch s { s.patch with flt := p }

/-- R126. -/
def envPatchRegisters (e : Fin NENV) : List Register :=
  let base := 0x100 + e.val * 0x20
  let row := fun (offset : Nat) (read : EnvPatch → Word) (write : Word → EnvPatch → EnvPatch) =>
    (⟨base + offset, fun s => read s.patch.env[e],
      fun x s => withEnvPatch s e (write x s.patch.env[e])⟩ : Register)
  [ row 0x00 EnvPatch.attack fun x p => { p with attack := clamp x f0 f60 },
    row 0x04 EnvPatch.decay fun x p => { p with decay := clamp x f0 f60 },
    row 0x08 EnvPatch.sustainDb fun x p => { p with sustainDb := clamp x fNeg96 f0 },
    row 0x0C EnvPatch.release fun x p => { p with release := clamp x f0 f60 },
    row 0x10 EnvPatch.delay fun x p => { p with delay := x },
    row 0x14 EnvPatch.hold fun x p => { p with hold := x },
    row 0x18 (fun p => packed [(0, p.mode.toNat)]) fun x p => { p with mode := x.getLsbD 0 } ]

/-- R127: UNI 0 is stored as 1 and values above 7 as 7, WAVE 6 and 7 as 5, and SYNC is 0 for oscillator 0. -/
def oscPatchRegisters (o : Fin NOSC) : List Register :=
  let base := 0x200 + o.val * 0x20
  let row := fun (offset : Nat) (read : OscPatch → Word) (write : Word → OscPatch → OscPatch) =>
    (⟨base + offset, fun s => read s.patch.osc[o],
      fun x s => withOscPatch s o (write x s.patch.osc[o])⟩ : Register)
  [ row 0x00 (fun p => packed [(0, waves.idxOf p.wave), (4, p.uni.toNat), (8, p.sync.toNat)])
      fun x p => { p with wave := waves.getD (min (bits x 0 3) 5) .off
                          uni := BitVec.ofNat 4 (max 1 (min (bits x 4 4) 7))
                          sync := o.val != 0 && x.getLsbD 8 },
    row 0x04 OscPatch.tune fun x p => { p with tune := clamp x fNeg48 f48 },
    row 0x08 OscPatch.spread fun x p => { p with spread := clamp x f0 f12 },
    row 0x0C OscPatch.gain fun x p => { p with gain := clamp x f0 f1 },
    row 0x10 OscPatch.fm0 fun x p => { p with fm0 := clamp x f0 f1 },
    row 0x14 OscPatch.fm1 fun x p => { p with fm1 := clamp x f0 f1 } ]

/-- R128: TYPE 6 and 7 are stored as 5, POLES 0 as 1, OS 3 as 2. -/
def fltPatchRegisters : List Register :=
  let row := fun (addr : Nat) (read : FltPatch → Word) (write : Word → FltPatch → FltPatch) =>
    (⟨addr, fun s => read s.patch.flt, fun x s => withFltPatch s (write x s.patch.flt)⟩ : Register)
  [ row 0x280 (fun p => packed [(0, fltTypes.idxOf p.type), (4, poleCounts.idxOf p.poles + 1),
                                (8, factors.idxOf p.os)])
      fun x p => { p with type := fltTypes.getD (min (bits x 0 3) 5) .off
                          poles := poleCounts.getD (max (bits x 4 2) 1 - 1) .two
                          os := factors.getD (min (bits x 8 2) 2) .x1 },
    row 0x284 FltPatch.cutoff fun x p => { p with cutoff := clamp x f0 f127 },
    row 0x288 FltPatch.resDb fun x p => { p with resDb := clamp x fNeg30 fNegTenth },
    row 0x28C FltPatch.eqGainDb fun x p => { p with eqGainDb := clamp x fNeg24 f24 },
    row 0x290 FltPatch.envAmt fun x p => { p with envAmt := clamp x fNeg127 f127 } ]

/-- MM_SLOT_ACTIVE (R129) and the single registers of R130. -/
def miscPatchRegisters : List Register :=
  let row := fun (addr : Nat) (read : Patch → Word) (write : Word → Patch → Patch) =>
    (⟨addr, fun s => read s.patch, fun x s => withPatch s (write x s.patch)⟩ : Register)
  [ row 0x2C0 (fun p => packed [(0, p.slotActive.toNat)])
      fun x p => { p with slotActive := BitVec.ofNat NSLOT (bits x 0 4) },
    row 0x390 Patch.lfoIn fun x p => { p with lfoIn := clamp x fNeg1 f1 },
    row 0x394 Patch.fastRTime fun x p => { p with fastRTime := clamp x f0 f60 },
    row 0x398 Patch.waitSamples fun x p => { p with waitSamples := if x = 0#32 then 1#32 else x },
    row 0x39C Patch.envDbFloor fun x p => { p with envDbFloor := clamp x fNeg96 fNeg1 } ]

/-- MM_BASE[s][c] (R129). -/
def mmBaseRegister (d : Fin NDEST) : Register :=
  ⟨0x300 + 4 * d.val, fun s => s.patch.mmBase[d],
    fun x s => withPatch s { s.patch with mmBase := s.patch.mmBase.set d.val (finite x) d.isLt }⟩

/-- MACRO[k] (R130). -/
def macroRegister (k : Fin NMACRO) : Register :=
  ⟨0x380 + 4 * k.val, fun s => s.patch.macroVal[k],
    fun x s => withPatch s { s.patch with macroVal := s.patch.macroVal.set k.val (finite x) k.isLt }⟩

/-- CC[i] (R131). -/
def ccRegister (i : Fin NCC) : Register :=
  ⟨0x400 + 4 * i.val, fun s => s.cc[i], fun x s => { s with cc := s.cc.set i.val (finite x) i.isLt }⟩

/-- DEPTH[s][c][k] (R132). -/
def depthRegister (r : Fin NROUTE) : Register :=
  ⟨0x800 + 4 * r.val, fun s => s.depth[r],
    fun x s => { s with depth := s.depth.set r.val (finite x) r.isLt }⟩

/-! ### Voice blocks (R140-R145) -/

/-- VB(v) (R140). -/
def voiceBase (v : Fin NVOICE) : Nat := 0x00010000 + v.val * 0x1000

/-- R141. -/
def voiceRegisters (v : Fin NVOICE) : List Register :=
  let row := fun (offset : Nat) (read : Voice → Word) (write : Word → Voice → Voice) =>
    (⟨voiceBase v + offset, fun s => read s.voice[v],
      fun x s => withVoice s v (write x s.voice[v])⟩ : Register)
  [ row 0x000 Voice.note fun x V => { V with note := clamp x f0 f127 },
    row 0x004 (fun V => packed [(0, V.vel.toNat)]) fun x V => { V with vel := BitVec.ofNat 7 (bits x 0 7) },
    row 0x008 Voice.amp fun x V => { V with amp := clamp x f0 f1 },
    row 0x00C (fun V => packed [(0, V.slots.toNat)])
      fun x V => { V with slots := BitVec.ofNat NSLOT (bits x 0 4) },
    readOnly (voiceBase v + 0x010) fun s => s.voice[v].mmCount,
    readOnly (voiceBase v + 0x014) fun s =>
      packed [(0, if s.voice[v].env[0].stage = .off then 0 else 1)] ]

/-- R142. -/
def envRegisters (v : Fin NVOICE) (e : Fin NENV) : List Register :=
  let base := voiceBase v + 0x040 + e.val * 0x40
  let row := fun (offset : Nat) (read : Env → Word) (write : Word → Env → Env) =>
    (⟨base + offset, fun s => read s.voice[v].env[e],
      fun x s => withEnv s v e (write x s.voice[v].env[e])⟩ : Register)
  [ row 0x00 (fun E => packed [(0, stages.idxOf E.stage), (8, E.mode.toNat)])
      fun x E => { E with stage := stages.getD (bits x 0 3) .off, mode := x.getLsbD 8 },
    row 0x04 Env.out fun x E => { E with out := clamp x f0 f1 },
    row 0x08 Env.outDb fun x E => { E with outDb := finite x },
    row 0x0C Env.cnt fun x E => { E with cnt := x },
    row 0x10 Env.aInc fun x E => { E with aInc := clamp x f0 fMaxFinite },
    row 0x14 Env.dInc fun x E => { E with dInc := clamp x f0 fMaxFinite },
    row 0x18 Env.rInc fun x E => { E with rInc := clamp x f0 fMaxFinite },
    row 0x1C Env.sLin fun x E => { E with sLin := clamp x f0 f1 } ] ++
  [ row 0x20 Env.sDb fun x E => { E with sDb := clamp x fNeg96 f0 },
    row 0x24 Env.aIncDb fun x E => { E with aIncDb := clamp x f0 fMaxFinite },
    row 0x28 Env.dIncDb fun x E => { E with dIncDb := clamp x f0 fMaxFinite },
    row 0x2C Env.rIncDb fun x E => { E with rIncDb := clamp x f0 fMaxFinite },
    row 0x30 Env.delayN fun x E => { E with delayN := x },
    row 0x34 Env.holdN fun x E => { E with holdN := x },
    row 0x38 Env.thr fun x E => { E with thr := clamp x f0 f1 },
    row 0x3C Env.dbFloor fun x E => { E with dbFloor := clamp x fNeg96 fNeg1 } ]

/-- R143: the single words, then PHASE[u] and INC[u]. -/
def oscRegisters (v : Fin NVOICE) (o : Fin NOSC) : List Register :=
  let base := voiceBase v + 0x200 + o.val * 0x80
  let row := fun (offset : Nat) (read : Osc → Word) (write : Word → Osc → Osc) =>
    (⟨base + offset, fun s => read s.voice[v].osc[o],
      fun x s => withOsc s v o (write x s.voice[v].osc[o])⟩ : Register)
  [ row 0x00 Osc.out fun x O => { O with out := finite x },
    row 0x04 (fun O => packed [(0, O.wrap.toNat)]) fun x O => { O with wrap := x.getLsbD 0 },
    row 0x08 Osc.syncPh fun x O => { O with syncPh := clamp x f0 incMax },
    row 0x0C Osc.fmIn fun x O => { O with fmIn := finite x } ] ++
  (List.finRange NUNI_MAX).flatMap fun u =>
    [ row (0x40 + 4 * u.val) (fun O => O.phase[u])
        fun x O => { O with phase := O.phase.set u.val (clamp x f0 incMax) u.isLt },
      row (0x60 + 4 * u.val) (fun O => O.inc[u])
        fun x O => { O with inc := O.inc.set u.val (finite x) u.isLt } ]

/-- R144: the words of the filter. -/
def fltRegisters (v : Fin NVOICE) : List Register :=
  let row := fun (offset : Nat) (read : Flt → Word) (write : Word → Flt → Flt) =>
    (⟨voiceBase v + 0x300 + offset, fun s => read s.voice[v].flt,
      fun x s => withFlt s v (write x s.voice[v].flt)⟩ : Register)
  [ row 0x00 Flt.base fun x F => { F with base := finite x },
    row 0x04 Flt.mod fun x F => { F with mod := finite x },
    row 0x08 Flt.last fun x F => { F with last := finite x },
    row 0x0C (fun F => packed [(0, F.valid.toNat)]) fun x F => { F with valid := x.getLsbD 0 },
    row 0x10 Flt.hz fun x F => { F with hz := finite x },
    row 0x14 Flt.coef fun x F => { F with coef := clamp x f0 coefMax },
    row 0x18 Flt.res fun x F => { F with res := clamp x f0 f2 } ]

/-- R144: the words of section k. -/
def sectionRegisters (v : Fin NVOICE) (k : Fin NSEC) : List Register :=
  let row := fun (offset : Nat) (read : Section → Word) (write : Word → Section → Section) =>
    (⟨voiceBase v + 0x340 + 0x20 * k.val + offset, fun s => read s.voice[v].flt.sec[k],
      fun x s => withFlt s v { s.voice[v].flt with
        sec := s.voice[v].flt.sec.set k.val (write x s.voice[v].flt.sec[k]) k.isLt }⟩ : Register)
  [ row 0x00 Section.bp fun x K => { K with bp := finite x },
    row 0x04 Section.bpM1 fun x K => { K with bpM1 := finite x },
    row 0x08 Section.lp fun x K => { K with lp := finite x },
    row 0x0C Section.lpM1 fun x K => { K with lpM1 := finite x },
    row 0x10 Section.hp fun x K => { K with hp := finite x } ]

/-- LIVE[s][c] (R145). -/
def liveRegister (v : Fin NVOICE) (d : Fin NDEST) : Register :=
  readOnly (voiceBase v + 0x400 + 4 * d.val) fun s => s.voice[v].live[d]

/-- LIST[i] (R145). -/
def listRegisters (v : Fin NVOICE) (i : Fin NROUTE) : List Register :=
  [ readOnly (voiceBase v + 0x600 + 8 * i.val) fun s =>
      let r := s.voice[v].list[i]
      packed [(0, r.slot.toNat), (8, r.control.toNat), (16, r.source.toNat)],
    readOnly (voiceBase v + 0x604 + 8 * i.val) fun s => s.voice[v].list[i].depth ]

/-- The registers of voice block v. -/
def voiceBlockRegisters (v : Fin NVOICE) : List Register :=
  voiceRegisters v ++ (List.finRange NENV).flatMap (envRegisters v) ++
  (List.finRange NOSC).flatMap (oscRegisters v) ++ fltRegisters v ++
  (List.finRange NSEC).flatMap (sectionRegisters v) ++ (List.finRange NDEST).map (liveRegister v) ++
  (List.finRange NROUTE).flatMap (listRegisters v)

/-- Every mapped word outside RAM but CMD and WT_LOCK, whose accesses do more than read and store. -/
def registers : List Register :=
  (List.finRange 4).map argRegister ++ globalRegisters ++ (List.finRange 8).map voiceFreeRegister ++
  (List.finRange NENV).flatMap envPatchRegisters ++ (List.finRange NOSC).flatMap oscPatchRegisters ++
  fltPatchRegisters ++ miscPatchRegisters ++ (List.finRange NDEST).map mmBaseRegister ++
  (List.finRange NMACRO).map macroRegister ++ (List.finRange NCC).map ccRegister ++
  (List.finRange NROUTE).map depthRegister ++ (List.finRange NVOICE).flatMap voiceBlockRegisters

/-! ### The reset columns -/

/-- What is not 0 after reset outside the voice blocks (R110-R132). -/
def resetTable : List (Nat × Word) :=
  [ (0x000, 0x41445352#32), (0x004, 0x00000007#32), (0x008, 0x00347010#32), (0x00C, 0x02001000#32),
    (0x010, 0x00000400#32), (0x044, 0x473B8000#32), (0x068, 0x00000400#32), (0x06C, 0x00000400#32),
    (0x080, 0x0000FFFF#32), (0x200, 0x00000012#32), (0x20C, 0x3F800000#32), (0x220, 0x00000010#32),
    (0x22C, 0x3F800000#32), (0x280, 0x00000010#32), (0x284, 0x42F00000#32), (0x288, 0xC1F00000#32),
    (0x394, 0x3C23D70A#32), (0x398, 0x00000010#32), (0x39C, 0xC2700000#32) ]

/-- What is not 0 after reset in an envelope group (R142). -/
def envResetTable : List (Nat × Word) :=
  [ (0x00, 0x00000007#32), (0x08, 0xC2700000#32), (0x10, 0x41A6AAAB#32), (0x14, 0x41A6AAAB#32),
    (0x18, 0x41A6AAAB#32), (0x1C, 0x3F800000#32), (0x24, 0x449C4000#32), (0x28, 0x449C4000#32),
    (0x2C, 0x449C4000#32), (0x38, dbToLin 0xC2700000#32), (0x3C, 0xC2700000#32) ]

/-- The reset column of the register at `a` (R110-R132, R141-R145); in a voice block only the envelope groups,
0x040-0x1BF, have a value that is not 0. -/
def resetWord (a : Nat) : Word :=
  if a < 0x10000 then (resetTable.lookup a).getD 0#32
  else if 0x040 ≤ a % 0x1000 ∧ a % 0x1000 < 0x1C0 then (envResetTable.lookup (a % 0x40)).getD 0#32
  else 0#32

end Sys2Proof.Safety
end

