-- ==== Sys2Proof/WellFormed.lean ====
section
/-! DEFINITION. Well-formed instructions: the operand ranges of 30_encoding.md R315 (VOICE < NVOICE, UNIT in
the command's range) and R322 (TARGET and VALUE of an event). An ill-formed command is still a legal
word that raises BAD_VOICE or BAD_UNIT; an ill-formed event is refused by RUN's validation. -/

namespace Sys2Proof

open Sys2Proof.Config Sys2Proof.Machine

/-- VOICE names a voice and UNIT one of `units` units (R301 steps 5 and 6). -/
def unitInRange (voice : BitVec 8) (unit : BitVec 4) (units : Nat) : Bool :=
  decide (voice.toNat < NVOICE) && decide (unit.toNat < units)

/-- Operands in the ranges R315 and R322 give. -/
def Instr.wellFormed (i : Instr) : Bool :=
  match i with
  | .nop | .run | .panic | .allNotesOff | .errClear => true
  | .envRetrigger v u | .envRelease v u | .envFastRelease v u | .envKill v u | .envSetTimes v u _
  | .envStep v u | .envTriggerDelayed v u | .envSetDelayHold v u => unitInRange v u NENV
  | .oscSetUnisonPitch v u | .oscStep v u | .oscReset v u | .oscFmMix v u => unitInRange v u NOSC
  | .noteOn v u | .noteOff v u _ | .fltSetCutoffBase v u | .fltAddCutoffMod v u | .fltSetCutoff v u
  | .fltSetResonance v u | .fltStep v u | .fltReset v u | .mmCompact v u | .mmApply v u =>
    unitInRange v u 1
  | .evNoteOn .. | .evNoteOff .. | .evControllerM .. | .evPitchBend .. | .evAutomation .. =>
    eventTargetValid i && eventValueValid i

end Sys2Proof
end

