-- ==== Sys2Proof/Certificates/Slice0/Obligations.lean ====
section
/-! DEFINITION. The statements for the provers, in the order of OBLIGATIONS.json. -/

open Sys2Proof Sys2Proof.Machine Sys2Proof.Config Sys2Proof.Safety

/-! ### Encoding and decoding -/

/-- Decoding the words of any instruction, read where that instruction is read, gives it back with every
operand (R310-R315, R320, R321). -/
def Obligations.EncodedInstructionsDecodeBack : Prop :=
  ∀ i : Instr, decode (portOf i) (encode i) = .ok i

/-- Words that decode have one meaning: they are the words of the decoded instruction, read at its port. -/
def Obligations.DecodedWordsAreTheEncodedWords : Prop :=
  ∀ (p : Port) (ws : List Word) (i : Instr), decode p ws = .ok i → portOf i = p ∧ encode i = ws

/-- Words written out from R310, R315 and R320 decode to what they stand for (95_test_vectors.md ENC-10,
ENC-11, ENC-14, MM-1, EVW-1, EVW-3, EVW-6). -/
def Obligations.HandWrittenWordsDecode : Prop :=
  decode .cmd [0x07000001#32] = .ok (.noteOff 0#8 0#4 true) ∧
  decode .cmd [0x14005001#32] = .ok (.envSetTimes 0#8 5#4 true) ∧
  decode .cmd [0x210F1000#32] = .ok (.oscStep 15#8 1#4) ∧
  decode .cmd [0x34020000#32] = .ok (.fltStep 2#8 0#4) ∧
  decode .cmd [0x40030000#32] = .ok (.mmCompact 3#8 0#4) ∧
  decode (.queue .midi) [0x10000000#32, 0x00007F45#32] = .ok (.evNoteOn 0#12 0#16 0x7F45#32) ∧
  decode (.queue .midi) [0x2FFF000F#32, 0x00000001#32] = .ok (.evNoteOff 4095#12 15#16 1#32) ∧
  decode (.queue .automation) [0x300300A1#32, 0x42700000#32] =
    .ok (.evAutomation 3#12 0xA1#16 0x42700000#32)

/-! ### A step runs the decoded instruction -/

/-- When the next turn is a write of `c` to CMD and `c` decodes to `i`, the step is exec of `i` in the state
without that turn. -/
def Obligations.StepRunsTheDecodedCommand : Prop :=
  ∀ (s : State) (c : Word) (rest : List Turn) (i : Instr),
    s.agenda = .write 0x018#32 c :: rest → decode .cmd [c] = .ok i →
    step s = exec i { s with agenda := rest }

/-- In a busy machine whose next turn is the scheduler's, among accesses still to come or with none left, the entry
at a queue's cursor, if its tick is the current sample and it decodes to `i`, is dispatched as exec of `i` after
the swap check; then come the entries left, the voices, the output word and the counter (R805, R820). The automation
queue's turn comes when no MIDI entry is due. -/
def Obligations.SampleRunsTheDecodedEvent : Prop :=
  ∀ (s : State) (i : Instr), SchedulerNext s → s.busy = true →
    (∀ (left : Nat), s.midiCount.toNat = s.mcur.toNat + left + 1 →
      entryTick s .midi s.mcur.toNat = s.schedI.toNat →
      decode (.queue .midi) [entryWord0 s .midi s.mcur.toNat, entryWord1 s .midi s.mcur.toNat] = .ok i →
      step s = bindNext (exec i (swapCheck (turnTaken s))) fun a =>
        bindNext (drain .midi left (advance .midi a)) fun b =>
        bindNext (drainQueue .automation b) fun c => .next (soundSample c)) ∧
    (∀ (left : Nat), NoneDue s .midi → s.atmCount.toNat = s.acur.toNat + left + 1 →
      entryTick s .automation s.acur.toNat = s.schedI.toNat →
      decode (.queue .automation)
        [entryWord0 s .automation s.acur.toNat, entryWord1 s .automation s.acur.toNat] = .ok i →
      step s = bindNext (exec i (swapCheck (turnTaken s))) fun a =>
        bindNext (drain .automation left (advance .automation a)) fun b => .next (soundSample b))

/-- Every step of every state has a next state (R902: a model never stops). -/
def Obligations.EveryStepHasANextState : Prop := ∀ s : State, SafeStep s

/-! ### Command acceptance -/

/-- The checks of a word written to CMD outside the fault state, in the order of R301 and R916: the first
that applies raises its fault with the word as ERR_INFO; with none, the word is a well-formed instruction and
runs. -/
def Obligations.CommandChecksRunInOrder : Prop :=
  ∀ (s : State) (c : Word) (rest : List Turn), s.agenda = .write 0x018#32 c :: rest → s.fault = false →
    (∀ cause, commandFault s.busy c.toNat = some cause →
      step s = .next (raiseAccess cause c { s with agenda := rest })) ∧
    (commandFault s.busy c.toNat = none →
      ∃ i, decode .cmd [c] = .ok i ∧ i.wellFormed = true ∧ step s = exec i { s with agenda := rest })

/-- In the fault state every word written to CMD but 0x0500_0000 changes nothing, and that one leaves the
fault state (R302). -/
def Obligations.FaultStateDiscardsCommands : Prop :=
  ∀ (s : State) (c : Word) (rest : List Turn), s.agenda = .write 0x018#32 c :: rest → s.fault = true →
    step s = .next (if c = 0x05000000#32
      then { s with agenda := rest, fault := false, errCause := .none }
      else { s with agenda := rest })

/-! ### Faults -/

/-- Taking a fault (R910, R912, R914): the first fault is recorded and sets IRQ_STATUS.FAULT, a later one
changes no record; a running block ends without DONE, and a panic waiting in it kills every envelope; nothing
else changes. -/
def Obligations.FaultEntryRecordsTheFirstFault : Prop :=
  ∀ (c : Cause) (info loc : Word) (s : State),
    let t := raise c info loc s
    (s.fault = false → t.errCause = c ∧ t.errInfo = info ∧ t.errLoc = loc ∧
      t.irqStatus = s.irqStatus ||| 2#3) ∧
    (s.fault = true → t.errCause = s.errCause ∧ t.errInfo = s.errInfo ∧ t.errLoc = s.errLoc ∧
      t.irqStatus = s.irqStatus) ∧
    t.fault = true ∧ t.busy = false ∧ (s.busy = true → t.panicPend = false) ∧
    (s.busy = false → t.panicPend = s.panicPend) ∧
    (s.busy = true → s.panicPend = true → ∀ v : Fin NVOICE,
      { t.voice[v] with env := s.voice[v].env } = s.voice[v] ∧
      ∀ e : Fin NENV, t.voice[v].env[e] = killed s.voice[v].env[e]) ∧
    (s.busy = false ∨ s.panicPend = false → t.voice = s.voice) ∧
    { t with fault := s.fault, busy := s.busy, panicPend := s.panicPend, errCause := s.errCause,
             errInfo := s.errInfo, errLoc := s.errLoc, irqStatus := s.irqStatus, voice := s.voice } = s

/-- An access whose address is no multiple of 4 raises BUS_ALIGN with the address and the location of R913; a
read returns 0, and nothing else changes (R203, R913). -/
def Obligations.MisalignedAccessRaisesBusAlign : Prop :=
  ∀ (s : State) (a x : Word), a.toNat % 4 ≠ 0 →
    let loc : Word := if s.busy then ((1#1 ++ 0#2) ++ s.schedI.extractLsb' 0 13) ++ 0#16 else 0#32
    busRead a s = { raise .busAlign a loc s with busData := 0#32 } ∧
    busWrite a x s = .next (raise .busAlign a loc s)

/-- An aligned access outside the address map of R220 raises BUS_UNMAPPED; a read returns 0 (R204). -/
def Obligations.UnmappedAccessRaisesBusUnmapped : Prop :=
  ∀ (s : State) (a x : Word), a.toNat % 4 = 0 → mapped a.toNat = false →
    busRead a s = { raiseAccess .busUnmapped a s with busData := 0#32 } ∧
    busWrite a x s = .next (raiseAccess .busUnmapped a s)

/-- While a block runs, a write to a mapped address that R212 does not list raises BUSY_WRITE, and a write to
a listed one other than CMD neither faults nor ends the block. -/
def Obligations.BusyWritesReachOnlyListedTargets : Prop :=
  ∀ (s : State) (a x : Word), s.busy = true → a.toNat % 4 = 0 → mapped a.toNat = true →
    (busyWritable s a.toNat = false → busWrite a x s = .next (raiseAccess .busyWrite a s)) ∧
    (busyWritable s a.toNat = true → a ≠ 0x018#32 →
      ∃ t, busWrite a x s = .next t ∧ t.busy = true ∧ t.fault = s.fault ∧ t.errCause = s.errCause ∧
        t.voice = s.voice ∧ t.patch = s.patch)

/-! ### Registers and RAM on the bus -/

/-- WT_LOCK: a read returns LOCK and sets it in the same access, and a write stores bit 0; the engine itself
never sets or clears it (R232). -/
def Obligations.WtLockIsATestAndSet : Prop :=
  ∀ (s : State) (x : Word),
    busRead 0x064#32 s = { s with busData := if s.wtLock then 1#32 else 0#32, wtLock := true } ∧
    busWrite 0x064#32 x s = .next { s with wtLock := x.getLsbD 0 } ∧
    (∀ (i : Instr) (t : State), exec i s = .next t → t.wtLock = s.wtLock) ∧
    (∀ t, SchedulerNext s → step s = .next t → t.wtLock = s.wtLock)

/-- A write to IRQ_STATUS clears the bits it has set; every other step that is not the reset input leaves
every pending bit pending (R116, R921); and the interrupt output is asserted in a state exactly when one of the three
sources is pending and enabled in it (R922). -/
def Obligations.InterruptBitsAreClearedOnlyByTheHost : Prop :=
  ∀ (s t : State), step s = .next t →
    (∀ x rest, s.agenda = .write 0x03C#32 x :: rest →
      t = { s with agenda := rest, irqStatus := s.irqStatus &&& ~~~(x.extractLsb' 0 3) }) ∧
    ((∀ x rest, s.agenda ≠ .write 0x03C#32 x :: rest) → (∀ rest, s.agenda ≠ .reset :: rest) →
      s.irqStatus &&& t.irqStatus = s.irqStatus) ∧
    irqLine t = ((t.irqStatus.getLsbD 0 && t.irqEnable.getLsbD 0) ||
      (t.irqStatus.getLsbD 1 && t.irqEnable.getLsbD 1) || (t.irqStatus.getLsbD 2 && t.irqEnable.getLsbD 2))

/-- At a sample, a requested swap with the lock free flips the active bank, clears the request and sets
WT_SWAPPED; otherwise bank and request stay. While idle no swap happens, and no access of a bus master flips the
bank (R233). -/
def Obligations.SwapHappensAtASampleWithTheLockFree : Prop :=
  ∀ (s t : State), step s = .next t →
    (SchedulerNext s → s.busy = true → s.swapReq = true → s.wtLock = false →
      t.activeBank = !s.activeBank ∧ t.swapReq = false ∧ t.irqStatus.getLsbD 2 = true) ∧
    (SchedulerNext s → s.busy = false ∨ s.swapReq = false ∨ s.wtLock = true →
      t.activeBank = s.activeBank ∧ t.swapReq = s.swapReq ∧
      t.irqStatus.getLsbD 2 = s.irqStatus.getLsbD 2) ∧
    (∀ turn rest, s.agenda = turn :: rest → turn ≠ .sample → turn ≠ .reset → t.activeBank = s.activeBank)

/-- While idle, a word written to RAM is the word a read there returns, and every other word of RAM is as
before (R244, R205). -/
def Obligations.RamReadsReturnTheLastWrite : Prop :=
  ∀ (s t : State) (a x : Word), s.busy = false → a.toNat % 4 = 0 → ramMapped a.toNat = true →
    busWrite a x s = .next t →
    (busRead a t).busData = x ∧
    (∀ b : Word, b.toNat % 4 = 0 → ramMapped b.toNat = true → b ≠ a →
      (busRead b t).busData = (busRead b s).busData) ∧
    { t with ram := s.ram } = s

/-! ### Reset -/

/-- The reset input restores every register of R1000 in one step, at any time: a read of each register returns the
word of its reset column (R110-R132, R141-R145, R1001), the lock is free, the hidden positions are 0 (R105), the
interrupt output is deasserted, and RAM is free again. The agents' turns still to come are kept, and the epoch that
tells one reset's free RAM from the next counts up (log entries 5 and 12). -/
def Obligations.ResetInputRestoresTheResetState : Prop :=
  ∀ (s : State) (rest : List Turn), s.agenda = .reset :: rest →
    let t := { State.reset with agenda := rest, epoch := s.epoch + 1 }
    step s = .next t ∧ (∀ a, ramByte t a = powerOnByte (s.epoch + 1) a) ∧
    (∀ r ∈ registers, (busRead (BitVec.ofNat 32 r.addr) t).busData = resetWord r.addr) ∧
    (busRead 0x064#32 t).busData = 0#32 ∧
    t.schedI = 0#32 ∧ t.mcur = 0#32 ∧ t.acur = 0#32 ∧ t.lastTickM = 0#32 ∧ t.lastTickA = 0#32 ∧
    irqLine t = false

/-- After reset every envelope is Off with the values R1001 lists, which are what ENV_SET_TIMES gives for times
0.0, sustain 0.0 dB, SR 48000.0 and floor −60.0; and every voice is free (R1001). -/
def Obligations.ResetEnvelopesAreOffWithZeroTimes : Prop :=
  (∀ (v : Fin NVOICE) (e : Fin NENV), State.reset.voice[v].env[e] =
    { stage := .off, mode := false, out := 0#32, outDb := 0xC2700000#32, cnt := 0#32,
      aInc := 0x41A6AAAB#32, dInc := 0x41A6AAAB#32, rInc := 0x41A6AAAB#32,
      sLin := 0x3F800000#32, sDb := 0#32, aIncDb := 0x449C4000#32, dIncDb := 0x449C4000#32,
      rIncDb := 0x449C4000#32, delayN := 0#32, holdN := 0#32, thr := dbToLin 0xC2700000#32,
      dbFloor := 0xC2700000#32 } ∧
    timesSet f48000 fNeg60 f0 f0 f0 f0 false State.reset.voice[v].env[e] = State.reset.voice[v].env[e]) ∧
  readLoc State.reset (.voiceFree 0) = 0x0000FFFF#32 ∧
  ∀ w : Fin 8, w ≠ 0 → readLoc State.reset (.voiceFree w) = 0#32

/-! ### Global commands -/

/-- NOP changes nothing, in every state (R840). -/
def Obligations.NopChangesNothing : Prop := ∀ s : State, exec .nop s = .next s

/-- RUN with legal lengths and no bad entry starts the block: BUSY is set and the scheduler's positions are 0
(R801, R803). The values left in the hidden LASTTICK registers are the model's choice (log entry 6). -/
def Obligations.RunStartsAValidBlock : Prop :=
  ∀ s : State, Accepting s → LengthsValid s →
    (∀ j, j < s.midiCount.toNat → entryFault s .midi j = none) →
    (∀ j, j < s.atmCount.toNat → entryFault s .automation j = none) →
    ∃ m a, exec .run s = .next { s with busy := true, schedI := 0#32, mcur := 0#32, acur := 0#32,
                                        lastTickM := m, lastTickA := a }

/-- RUN's length checks in their order, each with its ERR_INFO and ERR_LOC; the block does not start (R802, R901). -/
def Obligations.RunRefusesBadLengths : Prop :=
  ∀ s : State, Accepting s →
    (s.blockLen.toNat = 0 ∨ MAX_BLOCK < s.blockLen.toNat →
      exec .run s = .next (raise .badBlockLen s.blockLen 0#32 s)) ∧
    (1 ≤ s.blockLen.toNat → s.blockLen.toNat ≤ MAX_BLOCK → EVQ_CAP < s.midiCount.toNat →
      exec .run s = .next (raise .eventOverflow s.midiCount 0#32 s)) ∧
    (1 ≤ s.blockLen.toNat → s.blockLen.toNat ≤ MAX_BLOCK → s.midiCount.toNat ≤ EVQ_CAP →
      EVQ_CAP < s.atmCount.toNat → exec .run s = .next (raise .eventOverflow s.atmCount 0x2000#32 s))

/-- RUN reports the first bad entry, the MIDI queue before the automation queue, with word 0 as ERR_INFO and
the entry and queue as ERR_LOC; the block does not start (R802, R901, R321-R323). -/
def Obligations.RunRefusesTheFirstBadEntry : Prop :=
  ∀ (s : State) (j : Nat) (c : Cause), Accepting s → LengthsValid s →
    (j < s.midiCount.toNat → (∀ k, k < j → entryFault s .midi k = none) → entryFault s .midi j = some c →
      exec .run s = .next (raise c (entryWord0 s .midi j) (BitVec.ofNat 32 j) s)) ∧
    ((∀ k, k < s.midiCount.toNat → entryFault s .midi k = none) → j < s.atmCount.toNat →
      (∀ k, k < j → entryFault s .automation k = none) → entryFault s .automation j = some c →
      exec .run s = .next (raise c (entryWord0 s .automation j) (BitVec.ofNat 32 (j + 0x2000)) s))

/-- PANIC kills every envelope of every voice when idle and changes nothing else; while a block runs it only
sets PANIC_PEND (R841). -/
def Obligations.PanicKillsEveryEnvelope : Prop :=
  ∀ s : State, s.fault = false →
    (s.busy = false → ∃ t, exec .panic s = .next t ∧ { t with voice := s.voice } = s ∧
      ∀ v : Fin NVOICE, { t.voice[v] with env := s.voice[v].env } = s.voice[v] ∧
        ∀ e : Fin NENV, t.voice[v].env[e] = killed s.voice[v].env[e]) ∧
    (s.busy = true → exec .panic s = .next { s with panicPend := true })

/-- ALL_NOTES_OFF releases every envelope of every voice and changes nothing else (R842, R422). -/
def Obligations.AllNotesOffReleasesEveryEnvelope : Prop :=
  ∀ s : State, Accepting s → ∃ t, exec .allNotesOff s = .next t ∧ { t with voice := s.voice } = s ∧
    ∀ v : Fin NVOICE, { t.voice[v] with env := s.voice[v].env } = s.voice[v] ∧
      ∀ e : Fin NENV, t.voice[v].env[e] = released s.voice[v].env[e]

/-- ERR_CLEAR leaves the fault state: STATUS.FAULT and ERR_CAUSE are cleared, and ERR_INFO, ERR_LOC, IRQ_STATUS
and all else stay; it is accepted in the fault state and when idle (R844). -/
def Obligations.ErrClearLeavesTheFaultState : Prop :=
  ∀ s : State, s.fault = true ∨ s.busy = false →
    exec .errClear s = .next { s with fault := false, errCause := .none }

/-! ### Notes -/

/-- A note-on, by command with ARG0 and ARG1 cut at 127 or by event with the note and velocity of VALUE, writes
NOTE, VEL and AMP, resets both oscillators and the filter, sets and triggers the six envelopes from the patch,
and compacts the matrix; nothing else changes (R830, R821, R710). -/
def Obligations.NoteOnStartsTheVoice : Prop :=
  ∀ (s : State) (v : Fin NVOICE),
    let started := fun (note vel : Nat) (t : State) =>
      (∀ w : Fin NVOICE, w ≠ v → t.voice[w] = s.voice[w]) ∧ { t with voice := s.voice } = s ∧
      t.voice[v].note = fOfNat note ∧ t.voice[v].vel = BitVec.ofNat 7 vel ∧
      t.voice[v].amp = fDiv (fOfNat vel) f127 ∧
      (∀ o : Fin NOSC, t.voice[v].osc[o] = oscCleared s.voice[v].osc[o]) ∧
      t.voice[v].flt = fltCleared s.voice[v].flt ∧
      (∀ e : Fin NENV, t.voice[v].env[e] = noteOnEnvelope s e s.voice[v].env[e]) ∧
      t.voice[v].slots = s.patch.slotActive ∧ t.voice[v].live = s.patch.mmBase ∧
      Compacted s.patch s.depth s.voice[v].list t.voice[v].list t.voice[v].mmCount.toNat
    (∀ voice : BitVec 8, voice.toNat = v.val → Accepting s →
      ∃ t, exec (.noteOn voice 0#4) s = .next t ∧
        started (min s.arg[0].toNat 127) (min s.arg[1].toNat 127) t) ∧
    (∀ (tick : BitVec 12) (target : BitVec 16) (value : Word), target.toNat = v.val →
      ∃ t, exec (.evNoteOn tick target value) s = .next t ∧
        started (value.toNat % 2 ^ 7) (value.toNat / 2 ^ 8 % 2 ^ 7) t)

/-- A note-off, by command or by event, releases the six envelopes of the voice, with the fast-release rate if
FAST is set; nothing else changes (R832, R822). -/
def Obligations.NoteOffReleasesTheVoice : Prop :=
  ∀ (s : State) (v : Fin NVOICE) (fast : Bool),
    let ended := fun (t : State) =>
      (∀ w : Fin NVOICE, w ≠ v → t.voice[w] = s.voice[w]) ∧ { t with voice := s.voice } = s ∧
      { t.voice[v] with env := s.voice[v].env } = s.voice[v] ∧
      ∀ e : Fin NENV, t.voice[v].env[e] =
        if fast then fastReleased s.sampleRate s.patch.fastRTime s.voice[v].env[e]
        else released s.voice[v].env[e]
    (∀ voice : BitVec 8, voice.toNat = v.val → Accepting s →
      ∃ t, exec (.noteOff voice 0#4 fast) s = .next t ∧ ended t) ∧
    (∀ (tick : BitVec 12) (target : BitVec 16) (value : Word), target.toNat = v.val →
      value.getLsbD 0 = fast → ∃ t, exec (.evNoteOff tick target value) s = .next t ∧ ended t)

/-! ### Envelope commands -/

/-- ENV_RETRIGGER, ENV_TRIGGER_DELAYED and ENV_KILL put one envelope in Attack, Delay or Off with OUT 0.0, OUT_DB
at its own floor and CNT 0, from every prior stage; nothing else changes (R420, R421, R424). -/
def Obligations.EnvTriggersAndKillSetOneEnvelope : Prop :=
  ∀ (s : State) (voice : BitVec 8) (unit : BitVec 4) (hv : voice.toNat < NVOICE) (hu : unit.toNat < NENV),
    Accepting s →
    let v : Fin NVOICE := ⟨voice.toNat, hv⟩
    let e : Fin NENV := ⟨unit.toNat, hu⟩
    let E := s.voice[v].env[e]
    exec (.envRetrigger voice unit) s =
      .next (withEnv s v e { E with stage := .attack, out := f0, outDb := E.dbFloor, cnt := 0#32 }) ∧
    exec (.envTriggerDelayed voice unit) s =
      .next (withEnv s v e { E with stage := .delay, out := f0, outDb := E.dbFloor, cnt := 0#32 }) ∧
    exec (.envKill voice unit) s =
      .next (withEnv s v e { E with stage := .off, out := f0, outDb := E.dbFloor, cnt := 0#32 })

/-- ENV_RELEASE moves one envelope below Release to Release and changes nothing else; ENV_FAST_RELEASE also sets
its release rates from SR and FAST_R_TIME, in every stage (R422, R423). -/
def Obligations.EnvReleasesMoveToRelease : Prop :=
  ∀ (s : State) (voice : BitVec 8) (unit : BitVec 4) (hv : voice.toNat < NVOICE) (hu : unit.toNat < NENV),
    Accepting s →
    let v : Fin NVOICE := ⟨voice.toNat, hv⟩
    let e : Fin NENV := ⟨unit.toNat, hu⟩
    exec (.envRelease voice unit) s = .next (withEnv s v e (released s.voice[v].env[e])) ∧
    exec (.envFastRelease voice unit) s =
      .next (withEnv s v e (fastReleased s.sampleRate s.patch.fastRTime s.voice[v].env[e]))

/-- ENV_SET_TIMES writes one envelope's increments, sustain levels, threshold, floor and mode from ARG0-ARG3, SR
and ENV_DB_FLOOR; its stage, output, counters and counts and all else stay (R410). -/
def Obligations.EnvSetTimesDerivesTheIncrements : Prop :=
  ∀ (s : State) (voice : BitVec 8) (unit : BitVec 4) (mode : Bool) (hv : voice.toNat < NVOICE)
    (hu : unit.toNat < NENV), Accepting s →
    let v : Fin NVOICE := ⟨voice.toNat, hv⟩
    let e : Fin NENV := ⟨unit.toNat, hu⟩
    exec (.envSetTimes voice unit mode) s = .next (withEnv s v e
      (timesSet s.sampleRate s.patch.envDbFloor s.arg[0] s.arg[1] s.arg[2] s.arg[3] mode s.voice[v].env[e]))

/-- ENV_SET_DELAY_HOLD writes DELAY_N and HOLD_N from ARG0 and ARG1 and nothing else (R412). -/
def Obligations.EnvSetDelayHoldWritesTheCounts : Prop :=
  ∀ (s : State) (voice : BitVec 8) (unit : BitVec 4) (hv : voice.toNat < NVOICE) (hu : unit.toNat < NENV),
    Accepting s →
    let v : Fin NVOICE := ⟨voice.toNat, hv⟩
    let e : Fin NENV := ⟨unit.toNat, hu⟩
    exec (.envSetDelayHold voice unit) s =
      .next (withEnv s v e { s.voice[v].env[e] with delayN := s.arg[0], holdN := s.arg[1] })

/-- ENV_STEP in linear mode, and in either mode in Delay, Hold, Sustain, Wait and Off: the action of the stage,
then RESULT takes OUT; nothing else changes (R430-R438, R404). -/
def Obligations.EnvStepTakesTheLinearAction : Prop :=
  ∀ (s : State) (voice : BitVec 8) (unit : BitVec 4) (hv : voice.toNat < NVOICE) (hu : unit.toNat < NENV),
    Accepting s →
    let v : Fin NVOICE := ⟨voice.toNat, hv⟩
    let e : Fin NENV := ⟨unit.toNat, hu⟩
    let E := s.voice[v].env[e]
    let E' := linearStep s.patch.waitSamples E
    E.mode = false ∨ E.stage = .delay ∨ E.stage = .hold ∨ E.stage = .sustain ∨ E.stage = .wait ∨
      E.stage = .off →
    exec (.envStep voice unit) s = .next (withResult (withEnv s v e E') E'.out)

/-- ENV_STEP in dB mode in Attack, Decay and Release: linear at or below the floor, in dB above it; then RESULT
takes OUT; nothing else changes (R451-R453). -/
def Obligations.EnvStepTakesTheDbAction : Prop :=
  ∀ (s : State) (voice : BitVec 8) (unit : BitVec 4) (hv : voice.toNat < NVOICE) (hu : unit.toNat < NENV),
    Accepting s →
    let v : Fin NVOICE := ⟨voice.toNat, hv⟩
    let e : Fin NENV := ⟨unit.toNat, hu⟩
    let E := s.voice[v].env[e]
    let E' := if fLe E.outDb E.dbFloor then dbLinearStep s.patch.waitSamples E else dbRegionStep E
    E.mode = true → E.stage = .attack ∨ E.stage = .decay ∨ E.stage = .release →
    exec (.envStep voice unit) s = .next (withResult (withEnv s v e E') E'.out)

/-- In linear mode an output in [0, 1] stays in [0, 1] at every step, for increments that are not negative and
a sustain level in [0, 1] (R441 (c)). -/
def Obligations.LinearEnvelopeStaysInUnitRange : Prop :=
  ∀ (w : Word) (E : Env), E.mode = false → InRange f0 f1 E.out → InRange f0 f1 E.sLin →
    InRange f0 fMaxFinite E.aInc → InRange f0 fMaxFinite E.dInc → InRange f0 fMaxFinite E.rInc →
    InRange f0 f1 (Machine.envStep w E).out

/-- In linear mode a step of Attack strictly raises an output in [0, 1) or ends at exactly 1.0, and a step of
Release strictly lowers an output in (0, 1] or ends at exactly 0.0 in Wait, for increments above 2^-24 (R441 (a),
(d)). -/
def Obligations.LinearAttackRisesAndReleaseFalls : Prop :=
  ∀ (w : Word) (E : Env), E.mode = false →
    (E.stage = .attack → fLe f0 E.out = true → fLt E.out f1 = true →
      fLt 0x33800000#32 E.aInc = true →
      fLt E.out (Machine.envStep w E).out = true ∧ fLe (Machine.envStep w E).out f1 = true ∧
      ((Machine.envStep w E).stage ≠ .attack → (Machine.envStep w E).out = f1)) ∧
    (E.stage = .release → fLt f0 E.out = true → fLe E.out f1 = true →
      fLt 0x33800000#32 E.rInc = true →
      fLt (Machine.envStep w E).out E.out = true ∧ fLe f0 (Machine.envStep w E).out = true ∧
      ((Machine.envStep w E).stage ≠ .release →
        (Machine.envStep w E).out = f0 ∧ (Machine.envStep w E).stage = .wait))

/-! ### Oscillator commands -/

/-- OSC_SET_UNISON_PITCH writes the increments of the active lanes from ARG0 (spread), ARG1 (pitch) and SR, and
nothing else (R510, R501). -/
def Obligations.OscSetUnisonPitchWritesActiveLanes : Prop :=
  ∀ (s : State) (voice : BitVec 8) (unit : BitVec 4) (hv : voice.toNat < NVOICE) (hu : unit.toNat < NOSC),
    Accepting s →
    let v : Fin NVOICE := ⟨voice.toNat, hv⟩
    let o : Fin NOSC := ⟨unit.toNat, hu⟩
    let n := s.patch.osc[o].uni.toNat
    exec (.oscSetUnisonPitch voice unit) s = .next (withOsc s v o { s.voice[v].osc[o] with
      inc := Vector.ofFn fun u : Fin NUNI_MAX =>
        if u.val < n then lanePitchInc s.sampleRate n s.arg[0] s.arg[1] u.val
        else s.voice[v].osc[o].inc[u] })

/-- The lane offsets of OSC_SET_UNISON_PITCH are symmetric bit for bit about the centre: lane n−1−u has the offset
of lane u with its sign flipped, for every lane but an odd count's centre, whose offset is exactly 0.0 (R510). -/
def Obligations.UnisonOffsetsAreSymmetric : Prop :=
  ∀ (n u : Nat) (spread : F32), 2 ≤ n → n ≤ NUNI_MAX → u < n → InRange f0 f12 spread →
    (2 * u + 1 ≠ n → laneOffset n spread (n - 1 - u) = fNeg (laneOffset n spread u)) ∧
    (2 * u + 1 = n → fEq (laneOffset n spread u) f0 = true)

/-- OSC_STEP advances, wraps and, for a synced slave, forces every active lane, takes the wrap and phase of lane 0,
averages the lanes' waves into OUT and puts OUT in RESULT; nothing else changes (R540, R550, R551, R520, R525).
For a stored phase outside [0, 1), which no run reaches, the waves are the model's choice (log entry 11). -/
def Obligations.OscStepAdvancesTheActiveLanes : Prop :=
  ∀ (s : State) (voice : BitVec 8) (unit : BitVec 4) (hv : voice.toNat < NVOICE) (hu : unit.toNat < NOSC),
    Accepting s →
    let v : Fin NVOICE := ⟨voice.toNat, hv⟩
    let o : Fin NOSC := ⟨unit.toNat, hu⟩
    let p := s.patch.osc[o]
    let sync := decide (unit.toNat = 1) && s.patch.osc[1].sync && s.voice[v].osc[0].wrap
    1 ≤ p.uni.toNat → p.uni.toNat ≤ NUNI_MAX →
    let O' := oscStepped (waveShape s p.wave) sync s.voice[v].osc[0] p.uni.toNat s.voice[v].osc[o]
    exec (.oscStep voice unit) s = .next (withResult (withOsc s v o O') O'.out)

/-- OSC_RESET clears one oscillator but for its increments, and OSC_FM_MIX writes only its FM input from the two
oscillators' last outputs (R545, R560). -/
def Obligations.OscResetAndFmMixWriteOneOscillator : Prop :=
  ∀ (s : State) (voice : BitVec 8) (unit : BitVec 4) (hv : voice.toNat < NVOICE) (hu : unit.toNat < NOSC),
    Accepting s →
    let v : Fin NVOICE := ⟨voice.toNat, hv⟩
    let o : Fin NOSC := ⟨unit.toNat, hu⟩
    let p := s.patch.osc[o]
    exec (.oscReset voice unit) s = .next (withOsc s v o (oscCleared s.voice[v].osc[o])) ∧
    exec (.oscFmMix voice unit) s = .next (withOsc s v o { s.voice[v].osc[o] with
      fmIn := fAdd (fMul p.fm0 s.voice[v].osc[0].out) (fMul p.fm1 s.voice[v].osc[1].out) })

/-! ### Filter commands -/

/-- FLT_SET_CUTOFF_BASE and FLT_ADD_CUTOFF_MOD write BASE and MOD from ARG0, FLT_SET_RESONANCE writes RES, and
FLT_RESET clears the sections, MOD and VALID; nothing else changes (R610, R611, R615, R640). -/
def Obligations.FltControlsWriteTheirFields : Prop :=
  ∀ (s : State) (voice : BitVec 8) (hv : voice.toNat < NVOICE), Accepting s →
    let v : Fin NVOICE := ⟨voice.toNat, hv⟩
    let F := s.voice[v].flt
    exec (.fltSetCutoffBase voice 0#4) s = .next (withFlt s v { F with base := finite s.arg[0] }) ∧
    exec (.fltAddCutoffMod voice 0#4) s =
      .next (withFlt s v { F with mod := finite (fAdd F.mod (finite s.arg[0])) }) ∧
    exec (.fltSetResonance voice 0#4) s = .next (withFlt s v { F with
      res := fMul f2 (fSub f1 (dbToLin (clamp s.arg[0] fNeg30 fNegTenth))) }) ∧
    exec (.fltReset voice 0#4) s = .next (withFlt s v (fltCleared F))

/-- FLT_SET_CUTOFF recomputes LAST, HZ and COEF exactly when the clamped sum of BASE and MOD differs from LAST or
nothing valid is held; RESULT takes COEF; nothing else changes (R612). -/
def Obligations.FltSetCutoffRecomputesOnChange : Prop :=
  ∀ (s : State) (voice : BitVec 8) (hv : voice.toNat < NVOICE), Accepting s →
    let v : Fin NVOICE := ⟨voice.toNat, hv⟩
    let F := s.voice[v].flt
    let note := clamp (fAdd F.base F.mod) f0 f127
    let coef := fMin (cutoffCoef (noteToHz note)
      (fMul s.sampleRate (match s.patch.flt.os with | .x1 => f1 | .x2 => f2 | .x4 => f4))) coefMax
    (F.valid = false ∨ fEq note F.last = false →
      exec (.fltSetCutoff voice 0#4) s = .next (withResult
        (withFlt s v { F with last := note, valid := true, hz := noteToHz note, coef := coef }) coef)) ∧
    (F.valid = true → fEq note F.last = true →
      exec (.fltSetCutoff voice 0#4) s = .next (withResult s F.coef))

/-- FLT_STEP is a bypass after FINITE when TYPE is OFF; else the first sections feed their low-pass output on, the
last gives the response, each updated OSF times with one input, and the sections past POLES stay; RESULT takes
the output; nothing else changes (R620, R621, R630, R631). -/
def Obligations.FltStepRunsTheCascade : Prop :=
  ∀ (s : State) (voice : BitVec 8) (hv : voice.toNat < NVOICE), Accepting s →
    let v : Fin NVOICE := ⟨voice.toNat, hv⟩
    let F := s.voice[v].flt
    let p := s.patch.flt
    let x := finite s.arg[0]
    (p.type = .off → exec (.fltStep voice 0#4) s = .next (withResult s x)) ∧
    (p.type ≠ .off → exec (.fltStep voice 0#4) s =
      .next (withResult (withFlt s v { F with sec := (chainAfter p x F).1 }) (chainAfter p x F).2))

/-! ### Modulation matrix commands -/

/-- MM_COMPACT keeps exactly the routes of nonzero depth of the active slots, in order, takes the snapshot of the
active slots, sets the live values to MM_BASE and puts the count in RESULT; nothing else changes (R710, R702,
R146). -/
def Obligations.MmCompactKeepsTheNonzeroRoutes : Prop :=
  ∀ (s : State) (voice : BitVec 8) (hv : voice.toNat < NVOICE), Accepting s →
    let v : Fin NVOICE := ⟨voice.toNat, hv⟩
    ∃ (list : Vector Route NROUTE) (n : Nat),
      Compacted s.patch s.depth s.voice[v].list list n ∧
      exec (.mmCompact voice 0#4) s = .next (withResult (withVoice s v { s.voice[v] with
        slots := s.patch.slotActive, live := s.patch.mmBase, list := list, mmCount := BitVec.ofNat 32 n })
        (BitVec.ofNat 32 n))

/-- MM_APPLY rebuilds every live value from MM_BASE and the listed routes to it, in list order, and puts the count
in RESULT; nothing else changes (R720, R701). -/
def Obligations.MmApplyRebuildsTheLiveValues : Prop :=
  ∀ (s : State) (voice : BitVec 8) (hv : voice.toNat < NVOICE), Accepting s → ListsValid s →
    let v : Fin NVOICE := ⟨voice.toNat, hv⟩
    ∃ live : Vector F32 NDEST,
      (∀ (a : Fin NSLOT) (c : Fin NCTRL), live[destIndex a c] = liveValue s.patch s.voice[v] a c) ∧
      exec (.mmApply voice 0#4) s =
        .next (withResult (withVoice s v { s.voice[v] with live := live }) s.voice[v].mmCount)

/-- After a compaction and an application, a destination whose every route has depth 0 holds its unmodulated value
bit for bit (R731). -/
def Obligations.ZeroDepthLeavesTheBaseValue : Prop :=
  ∀ (s t u : State) (voice : BitVec 8) (hv : voice.toNat < NVOICE) (a : Fin NSLOT) (c : Fin NCTRL),
    Accepting s → (∀ k : Fin NSRC, fEq s.depth[routeIndex a c k] f0 = true) →
    exec (.mmCompact voice 0#4) s = .next t → exec (.mmApply voice 0#4) t = .next u →
    u.voice[(⟨voice.toNat, hv⟩ : Fin NVOICE)].live[destIndex a c] = s.patch.mmBase[destIndex a c]

/-! ### Events -/

/-- A MIDI CONTROLLER event writes its CC word through FINITE, and a PITCH_BEND event writes PITCH_BEND through its
clamp, whatever TARGET is; nothing else changes (R823, R825). -/
def Obligations.ControllerAndPitchBendWriteTheirRegister : Prop :=
  ∀ (s : State) (tick : BitVec 12) (target : BitVec 16) (value : Word),
    (∀ h : target.toNat < NCC, exec (.evControllerM tick target value) s =
      .next { s with cc := s.cc.set target.toNat (finite value) h }) ∧
    exec (.evPitchBend tick target value) s = .next { s with pitchBend := clamp value fNeg48 f48 }

/-- An automation event with a valid TARGET has exactly the effect of a host write of VALUE to 4 × TARGET while
idle, busy or not, and it reaches only patch registers and the depth table (R824, R322). -/
def Obligations.AutomationWritesLikeAnIdleHost : Prop :=
  ∀ (s : State) (tick : BitVec 12) (target : BitVec 16) (value : Word),
    badTarget .automation 3 target.toNat = false →
    ∃ t, exec (.evAutomation tick target value) s = .next t ∧
      busWrite (BitVec.ofNat 32 (4 * target.toNat)) value { s with busy := false } =
        .next { t with busy := false } ∧
      { t with patch := s.patch, depth := s.depth } = s

/-! ### The block -/

/-- One sample writes only its output word in RAM, moves each queue's cursor past its due entries, counts SCHED_I up
by one, applies a pending panic, after which every envelope is Off at 0.0 and its floor and the output word is +0.0,
and ends the block with DONE exactly at the last sample. Of the rest it may change only what events, the swap and
the voices write: every operand, result, error, enable, count, length, lock and rate register stays, and so does
IRQ_STATUS.FAULT (R805, R807, R841, R250). -/
def Obligations.SampleWritesItsOutputWordOnly : Prop :=
  ∀ s t : State, SchedulerNext s → s.busy = true → s.schedI.toNat < MAX_BLOCK → step s = .next t →
    (∀ a, a < 0x4000 + 4 * s.schedI.toNat ∨ 0x4000 + 4 * s.schedI.toNat + 4 ≤ a →
      ramByte t a = ramByte s a) ∧
    (∀ q : Queue, (cursor q s).toNat ≤ (cursor q t).toNat ∧
      (∀ j, (cursor q s).toNat ≤ j → j < (cursor q t).toNat →
        j < (queueCount q s).toNat ∧ entryTick s q j = s.schedI.toNat) ∧
      ((cursor q t).toNat < (queueCount q s).toNat →
        entryTick s q (cursor q t).toNat ≠ s.schedI.toNat)) ∧
    t.schedI = s.schedI + 1#32 ∧ t.panicPend = false ∧
    (s.panicPend = true → (∀ (v : Fin NVOICE) (e : Fin NENV), t.voice[v].env[e] = killed t.voice[v].env[e]) ∧
      ramWord t (0x4000 + 4 * s.schedI.toNat) = 0x00000000#32) ∧
    (s.schedI.toNat + 1 = s.blockLen.toNat → t.busy = false ∧ t.irqStatus.getLsbD 0 = true) ∧
    (s.schedI.toNat + 1 ≠ s.blockLen.toNat → t.busy = true ∧
      t.irqStatus.getLsbD 0 = s.irqStatus.getLsbD 0) ∧
    t.irqStatus.getLsbD 1 = s.irqStatus.getLsbD 1 ∧
    { t with busy := s.busy, panicPend := s.panicPend, irqStatus := s.irqStatus, schedI := s.schedI,
             mcur := s.mcur, acur := s.acur, pitchBend := s.pitchBend, activeBank := s.activeBank,
             swapReq := s.swapReq, patch := s.patch, cc := s.cc, depth := s.depth, voice := s.voice,
             ram := s.ram } = turnTaken s

/-- The voices of a sample: with b the state after the swap check, the due events and a pending panic, a voice whose
amplitude envelope is Off in b keeps all its state, every other voice is stepped once, and the output word is the
sum of the stepped voices in increasing index from +0.0 (R805 steps 3 to 5, R806, R811). So, in a sample without a due
event or a pending panic, an Off voice keeps all its state, and with every voice Off the output word is +0.0. -/
def Obligations.InactiveVoicesContributeNothing : Prop :=
  ∀ s t : State, SchedulerNext s → s.busy = true → s.schedI.toNat < MAX_BLOCK → step s = .next t →
    let out := ramWord t (0x4000 + 4 * s.schedI.toNat)
    (∃ a, bindNext (drainQueue .midi (swapCheck (turnTaken s))) (drainQueue .automation) = .next a ∧
      let b := panicApplied a
      (∀ v : Fin NVOICE, t.voice[v] =
        if b.voice[v].env[0].stage = .off then b.voice[v] else (voiceStep v b).2.voice[v]) ∧
      out = (((List.finRange NVOICE).filter fun v => b.voice[v].env[0].stage != .off).map
        fun v => (voiceStep v b).1).foldl fAdd 0x00000000#32) ∧
    (NoneDue s .midi → NoneDue s .automation → s.panicPend = false →
      (∀ v : Fin NVOICE, s.voice[v].env[0].stage = .off → t.voice[v] = s.voice[v]) ∧
      ((∀ v : Fin NVOICE, s.voice[v].env[0].stage = .off) → out = 0x00000000#32))

/-- The voice chain of a block is the sequence of unit commands a host would issue while idle in the order of R810
with the operands given there: run in the same state with BUSY set or clear, it leaves the same voices and changes
nothing else, and its output is the FLT_STEP result times the amplitude envelope and AMP (R810, R1032). -/
def Obligations.VoiceChainIsTheCommandSequence : Prop :=
  ∀ (s : State) (voice : BitVec 8) (hv : voice.toNat < NVOICE) (running : Bool), Accepting s →
    let v : Fin NVOICE := ⟨voice.toNat, hv⟩
    let cmd := fun (i : Instr) (ops : State → Word × Word) (t : State) =>
      exec i { t with arg := #v[(ops t).1, (ops t).2, t.arg[2], t.arg[3]] }
    let none := fun _ : State => (0#32, 0#32)
    let pitch := fun o : Fin NOSC => fun t : State =>
      (t.patch.osc[o].spread, fAdd (fAdd t.voice[v].note t.pitchBend) t.patch.osc[o].tune)
    let mix := fun t : State =>
      (fAdd (fMul (fMul t.patch.osc[0].gain t.voice[v].env[2].out) t.voice[v].osc[0].out)
            (fMul (fMul t.patch.osc[1].gain t.voice[v].env[3].out) t.voice[v].osc[1].out), 0#32)
    let run := fun (fs : List (State → Host.Outcome State Machine.Fault Refusal)) (t : State) =>
      fs.foldl bindNext (.next t)
    ∃ a b t : State,
      run ([cmd (.oscSetUnisonPitch voice 0#4) (pitch 0), cmd (.oscSetUnisonPitch voice 1#4) (pitch 1),
            cmd (.oscFmMix voice 0#4) none, cmd (.oscFmMix voice 1#4) none,
            cmd (.oscStep voice 0#4) none, cmd (.oscStep voice 1#4) none,
            cmd (.envStep voice 0#4) none, cmd (.envStep voice 1#4) none, cmd (.envStep voice 2#4) none,
            cmd (.envStep voice 3#4) none, cmd (.envStep voice 4#4) none, cmd (.envStep voice 5#4) none])
        s = .next a ∧
      run [cmd (.fltSetCutoffBase voice 0#4) (fun t => (t.patch.flt.cutoff, 0#32)),
           fun t => .next (withFlt t v { t.voice[v].flt with mod := f0 }),
           cmd (.fltAddCutoffMod voice 0#4) (fun t => (fMul t.patch.flt.envAmt t.voice[v].env[1].out, 0#32)),
           cmd (.fltSetCutoff voice 0#4) none,
           cmd (.fltSetResonance voice 0#4) (fun t => (t.patch.flt.resDb, 0#32)),
           cmd (.fltStep voice 0#4) (fun _ => mix a)] a = .next b ∧
      run [cmd (.mmApply voice 0#4) none] b = .next t ∧
      (voiceStep v { s with busy := running }).2 = { s with busy := running, voice := t.voice } ∧
      (voiceStep v { s with busy := running }).1 = fMul (fMul b.result t.voice[v].env[0].out) t.voice[v].amp ∧
      ∀ w : Fin NVOICE, w ≠ v → t.voice[w] = s.voice[w]

/-- A block whose samples no access and no reset disturbs, so that the next turns are the scheduler's for as many
samples as it has left, ends after exactly those, with SAMPLE_IDX at BLOCK_LEN, DONE set and no fault, and later turns
still to come (R801, R805, R807, R119, R241). -/
def Obligations.UndisturbedBlockRunsToItsEnd : Prop :=
  ∀ s : State, ControlConsistent s → s.busy = true →
    let n := s.blockLen.toNat - s.schedI.toNat
    (∀ turn ∈ s.agenda.take n, turn = .sample) →
    ∃ t, Sys2Proof.core.run n s = .next t ∧
      t.busy = false ∧ t.schedI = s.blockLen ∧ t.irqStatus.getLsbD 0 = true ∧ t.fault = false ∧
      t.agenda = s.agenda.drop n

/-- While a block goes on, no step changes the event queues, their counts or the block length (R243). -/
def Obligations.QueuesCannotChangeDuringABlock : Prop :=
  ∀ s t : State, s.busy = true → step s = .next t → t.busy = true →
    (∀ a, 0x2000 ≤ a → a < 0x4000 → ramByte t a = ramByte s a) ∧
    t.midiCount = s.midiCount ∧ t.atmCount = s.atmCount ∧ t.blockLen = s.blockLen

/-- No instruction writes an operand register, the sample rate, a wavetable register, a count, IRQ_ENABLE or a byte
of RAM, and only RUN starts a block (R314, R250). -/
def Obligations.InstructionsLeaveHostRegistersAlone : Prop :=
  ∀ (i : Instr) (s t : State), exec i s = .next t →
    t.arg = s.arg ∧ t.sampleRate = s.sampleRate ∧ t.activeBank = s.activeBank ∧ t.swapReq = s.swapReq ∧
    t.wtLock = s.wtLock ∧ t.wtBlen0 = s.wtBlen0 ∧ t.wtBlen1 = s.wtBlen1 ∧ t.blockLen = s.blockLen ∧
    t.midiCount = s.midiCount ∧ t.atmCount = s.atmCount ∧ t.irqEnable = s.irqEnable ∧ t.ram = s.ram ∧
    t.epoch = s.epoch ∧ t.agenda = s.agenda ∧ (i ≠ .run → t.busy = true → s.busy = true)

/-! ### Invariants -/

/-- Reset satisfies every invariant below. -/
def Obligations.ResetSatisfiesTheInvariants : Prop :=
  ControlConsistent State.reset ∧ RamConfined State.reset ∧ RegistersLegal State.reset ∧
  PhasesInUnit State.reset ∧ ListsValid State.reset

/-- Every step keeps the control state consistent. -/
def Obligations.ControlStateStaysConsistent : Prop :=
  ∀ s t : State, ControlConsistent s → step s = .next t → ControlConsistent t

/-- Every step keeps RAM canonical and inside the four RAMs. The canonical form is the model's (log entry 5). -/
def Obligations.RamStaysCanonicalAndConfined : Prop :=
  ∀ s t : State, RamConfined s → step s = .next t → RamConfined t

/-- Every step keeps every filtered register outside the voices a value its filter can store (R101, R117-R132). The
fields of the voices are not among them: the units store computed values there without a filter. -/
def Obligations.FilteredRegistersStayLegal : Prop :=
  ∀ s t : State, RegistersLegal s → step s = .next t → RegistersLegal t

/-- Every step keeps every phase in [0, 1), whatever the increments and FM inputs are (R541). -/
def Obligations.PhasesStayInUnitRange : Prop :=
  ∀ s t : State, PhasesInUnit s → step s = .next t → PhasesInUnit t

/-- Every step keeps every modulation list within its capacity and in range (R146, R721). -/
def Obligations.ModulationListsStayValid : Prop :=
  ∀ s t : State, ListsValid s → step s = .next t → ListsValid t

/-! ### Registers on the bus -/

/-- Every register of R110-R132 and R141-R145 but CMD and WT_LOCK on the bus: a read returns its word and changes
nothing, in every state; a write stores the filtered value, clears the written bits of IRQ_STATUS or, where the
register is read-only, is ignored, and changes nothing else, while idle or where the register may be written while
busy (R101, R201, R202, R212, R160). A read of CMD returns 0 (R113). -/
def Obligations.BusReachesEveryRegister : Prop :=
  ∀ s : State, (∀ r ∈ registers,
      busRead (BitVec.ofNat 32 r.addr) s = { s with busData := r.read s } ∧
      ∀ x : Word, s.busy = false ∨ busyWritable s r.addr = true →
        busWrite (BitVec.ofNat 32 r.addr) x s = .next (r.write x s)) ∧
    busRead 0x018#32 s = { s with busData := 0#32 }
end

