-- ==== Sys2Proof/Laws/State.lean ====
section
/-! SUPPORT. What each named update of State leaves in each field, all true by rfl. -/

namespace Sys2Proof.Machine

open Sys2Proof.Config

@[simp] theorem modVoice_busy (v : Fin NVOICE) (f : Voice → Voice) (s : State) : (modVoice v f s).busy = s.busy := rfl
@[simp] theorem modVoice_fault (v : Fin NVOICE) (f : Voice → Voice) (s : State) : (modVoice v f s).fault = s.fault := rfl
@[simp] theorem modVoice_panicPend (v : Fin NVOICE) (f : Voice → Voice) (s : State) : (modVoice v f s).panicPend = s.panicPend := rfl
@[simp] theorem modVoice_arg (v : Fin NVOICE) (f : Voice → Voice) (s : State) : (modVoice v f s).arg = s.arg := rfl
@[simp] theorem modVoice_result (v : Fin NVOICE) (f : Voice → Voice) (s : State) : (modVoice v f s).result = s.result := rfl
@[simp] theorem modVoice_errCause (v : Fin NVOICE) (f : Voice → Voice) (s : State) : (modVoice v f s).errCause = s.errCause := rfl
@[simp] theorem modVoice_errInfo (v : Fin NVOICE) (f : Voice → Voice) (s : State) : (modVoice v f s).errInfo = s.errInfo := rfl
@[simp] theorem modVoice_errLoc (v : Fin NVOICE) (f : Voice → Voice) (s : State) : (modVoice v f s).errLoc = s.errLoc := rfl
@[simp] theorem modVoice_irqStatus (v : Fin NVOICE) (f : Voice → Voice) (s : State) : (modVoice v f s).irqStatus = s.irqStatus := rfl
@[simp] theorem modVoice_irqEnable (v : Fin NVOICE) (f : Voice → Voice) (s : State) : (modVoice v f s).irqEnable = s.irqEnable := rfl
@[simp] theorem modVoice_sampleRate (v : Fin NVOICE) (f : Voice → Voice) (s : State) : (modVoice v f s).sampleRate = s.sampleRate := rfl
@[simp] theorem modVoice_blockLen (v : Fin NVOICE) (f : Voice → Voice) (s : State) : (modVoice v f s).blockLen = s.blockLen := rfl
@[simp] theorem modVoice_midiCount (v : Fin NVOICE) (f : Voice → Voice) (s : State) : (modVoice v f s).midiCount = s.midiCount := rfl
@[simp] theorem modVoice_atmCount (v : Fin NVOICE) (f : Voice → Voice) (s : State) : (modVoice v f s).atmCount = s.atmCount := rfl
@[simp] theorem modVoice_schedI (v : Fin NVOICE) (f : Voice → Voice) (s : State) : (modVoice v f s).schedI = s.schedI := rfl
@[simp] theorem modVoice_mcur (v : Fin NVOICE) (f : Voice → Voice) (s : State) : (modVoice v f s).mcur = s.mcur := rfl
@[simp] theorem modVoice_acur (v : Fin NVOICE) (f : Voice → Voice) (s : State) : (modVoice v f s).acur = s.acur := rfl
@[simp] theorem modVoice_lastTickM (v : Fin NVOICE) (f : Voice → Voice) (s : State) : (modVoice v f s).lastTickM = s.lastTickM := rfl
@[simp] theorem modVoice_lastTickA (v : Fin NVOICE) (f : Voice → Voice) (s : State) : (modVoice v f s).lastTickA = s.lastTickA := rfl
@[simp] theorem modVoice_pitchBend (v : Fin NVOICE) (f : Voice → Voice) (s : State) : (modVoice v f s).pitchBend = s.pitchBend := rfl
@[simp] theorem modVoice_activeBank (v : Fin NVOICE) (f : Voice → Voice) (s : State) : (modVoice v f s).activeBank = s.activeBank := rfl
@[simp] theorem modVoice_swapReq (v : Fin NVOICE) (f : Voice → Voice) (s : State) : (modVoice v f s).swapReq = s.swapReq := rfl
@[simp] theorem modVoice_wtLock (v : Fin NVOICE) (f : Voice → Voice) (s : State) : (modVoice v f s).wtLock = s.wtLock := rfl
@[simp] theorem modVoice_wtBlen0 (v : Fin NVOICE) (f : Voice → Voice) (s : State) : (modVoice v f s).wtBlen0 = s.wtBlen0 := rfl
@[simp] theorem modVoice_wtBlen1 (v : Fin NVOICE) (f : Voice → Voice) (s : State) : (modVoice v f s).wtBlen1 = s.wtBlen1 := rfl
@[simp] theorem modVoice_patch (v : Fin NVOICE) (f : Voice → Voice) (s : State) : (modVoice v f s).patch = s.patch := rfl
@[simp] theorem modVoice_cc (v : Fin NVOICE) (f : Voice → Voice) (s : State) : (modVoice v f s).cc = s.cc := rfl
@[simp] theorem modVoice_depth (v : Fin NVOICE) (f : Voice → Voice) (s : State) : (modVoice v f s).depth = s.depth := rfl
@[simp] theorem modVoice_voice (v : Fin NVOICE) (f : Voice → Voice) (s : State) : (modVoice v f s).voice = vmod s.voice v f := rfl
@[simp] theorem modVoice_ram (v : Fin NVOICE) (f : Voice → Voice) (s : State) : (modVoice v f s).ram = s.ram := rfl
@[simp] theorem modVoice_agenda (v : Fin NVOICE) (f : Voice → Voice) (s : State) : (modVoice v f s).agenda = s.agenda := rfl
@[simp] theorem modVoice_busData (v : Fin NVOICE) (f : Voice → Voice) (s : State) : (modVoice v f s).busData = s.busData := rfl
@[simp] theorem modVoice_epoch (v : Fin NVOICE) (f : Voice → Voice) (s : State) : (modVoice v f s).epoch = s.epoch := rfl

@[simp] theorem setResult_busy (w : Word) (s : State) : (setResult w s).busy = s.busy := rfl
@[simp] theorem setResult_fault (w : Word) (s : State) : (setResult w s).fault = s.fault := rfl
@[simp] theorem setResult_panicPend (w : Word) (s : State) : (setResult w s).panicPend = s.panicPend := rfl
@[simp] theorem setResult_arg (w : Word) (s : State) : (setResult w s).arg = s.arg := rfl
@[simp] theorem setResult_result (w : Word) (s : State) : (setResult w s).result = w := rfl
@[simp] theorem setResult_errCause (w : Word) (s : State) : (setResult w s).errCause = s.errCause := rfl
@[simp] theorem setResult_errInfo (w : Word) (s : State) : (setResult w s).errInfo = s.errInfo := rfl
@[simp] theorem setResult_errLoc (w : Word) (s : State) : (setResult w s).errLoc = s.errLoc := rfl
@[simp] theorem setResult_irqStatus (w : Word) (s : State) : (setResult w s).irqStatus = s.irqStatus := rfl
@[simp] theorem setResult_irqEnable (w : Word) (s : State) : (setResult w s).irqEnable = s.irqEnable := rfl
@[simp] theorem setResult_sampleRate (w : Word) (s : State) : (setResult w s).sampleRate = s.sampleRate := rfl
@[simp] theorem setResult_blockLen (w : Word) (s : State) : (setResult w s).blockLen = s.blockLen := rfl
@[simp] theorem setResult_midiCount (w : Word) (s : State) : (setResult w s).midiCount = s.midiCount := rfl
@[simp] theorem setResult_atmCount (w : Word) (s : State) : (setResult w s).atmCount = s.atmCount := rfl
@[simp] theorem setResult_schedI (w : Word) (s : State) : (setResult w s).schedI = s.schedI := rfl
@[simp] theorem setResult_mcur (w : Word) (s : State) : (setResult w s).mcur = s.mcur := rfl
@[simp] theorem setResult_acur (w : Word) (s : State) : (setResult w s).acur = s.acur := rfl
@[simp] theorem setResult_lastTickM (w : Word) (s : State) : (setResult w s).lastTickM = s.lastTickM := rfl
@[simp] theorem setResult_lastTickA (w : Word) (s : State) : (setResult w s).lastTickA = s.lastTickA := rfl
@[simp] theorem setResult_pitchBend (w : Word) (s : State) : (setResult w s).pitchBend = s.pitchBend := rfl
@[simp] theorem setResult_activeBank (w : Word) (s : State) : (setResult w s).activeBank = s.activeBank := rfl
@[simp] theorem setResult_swapReq (w : Word) (s : State) : (setResult w s).swapReq = s.swapReq := rfl
@[simp] theorem setResult_wtLock (w : Word) (s : State) : (setResult w s).wtLock = s.wtLock := rfl
@[simp] theorem setResult_wtBlen0 (w : Word) (s : State) : (setResult w s).wtBlen0 = s.wtBlen0 := rfl
@[simp] theorem setResult_wtBlen1 (w : Word) (s : State) : (setResult w s).wtBlen1 = s.wtBlen1 := rfl
@[simp] theorem setResult_patch (w : Word) (s : State) : (setResult w s).patch = s.patch := rfl
@[simp] theorem setResult_cc (w : Word) (s : State) : (setResult w s).cc = s.cc := rfl
@[simp] theorem setResult_depth (w : Word) (s : State) : (setResult w s).depth = s.depth := rfl
@[simp] theorem setResult_voice (w : Word) (s : State) : (setResult w s).voice = s.voice := rfl
@[simp] theorem setResult_ram (w : Word) (s : State) : (setResult w s).ram = s.ram := rfl
@[simp] theorem setResult_agenda (w : Word) (s : State) : (setResult w s).agenda = s.agenda := rfl
@[simp] theorem setResult_busData (w : Word) (s : State) : (setResult w s).busData = s.busData := rfl
@[simp] theorem setResult_epoch (w : Word) (s : State) : (setResult w s).epoch = s.epoch := rfl

@[simp] theorem setBusData_busy (w : Word) (s : State) : (setBusData w s).busy = s.busy := rfl
@[simp] theorem setBusData_fault (w : Word) (s : State) : (setBusData w s).fault = s.fault := rfl
@[simp] theorem setBusData_panicPend (w : Word) (s : State) : (setBusData w s).panicPend = s.panicPend := rfl
@[simp] theorem setBusData_arg (w : Word) (s : State) : (setBusData w s).arg = s.arg := rfl
@[simp] theorem setBusData_result (w : Word) (s : State) : (setBusData w s).result = s.result := rfl
@[simp] theorem setBusData_errCause (w : Word) (s : State) : (setBusData w s).errCause = s.errCause := rfl
@[simp] theorem setBusData_errInfo (w : Word) (s : State) : (setBusData w s).errInfo = s.errInfo := rfl
@[simp] theorem setBusData_errLoc (w : Word) (s : State) : (setBusData w s).errLoc = s.errLoc := rfl
@[simp] theorem setBusData_irqStatus (w : Word) (s : State) : (setBusData w s).irqStatus = s.irqStatus := rfl
@[simp] theorem setBusData_irqEnable (w : Word) (s : State) : (setBusData w s).irqEnable = s.irqEnable := rfl
@[simp] theorem setBusData_sampleRate (w : Word) (s : State) : (setBusData w s).sampleRate = s.sampleRate := rfl
@[simp] theorem setBusData_blockLen (w : Word) (s : State) : (setBusData w s).blockLen = s.blockLen := rfl
@[simp] theorem setBusData_midiCount (w : Word) (s : State) : (setBusData w s).midiCount = s.midiCount := rfl
@[simp] theorem setBusData_atmCount (w : Word) (s : State) : (setBusData w s).atmCount = s.atmCount := rfl
@[simp] theorem setBusData_schedI (w : Word) (s : State) : (setBusData w s).schedI = s.schedI := rfl
@[simp] theorem setBusData_mcur (w : Word) (s : State) : (setBusData w s).mcur = s.mcur := rfl
@[simp] theorem setBusData_acur (w : Word) (s : State) : (setBusData w s).acur = s.acur := rfl
@[simp] theorem setBusData_lastTickM (w : Word) (s : State) : (setBusData w s).lastTickM = s.lastTickM := rfl
@[simp] theorem setBusData_lastTickA (w : Word) (s : State) : (setBusData w s).lastTickA = s.lastTickA := rfl
@[simp] theorem setBusData_pitchBend (w : Word) (s : State) : (setBusData w s).pitchBend = s.pitchBend := rfl
@[simp] theorem setBusData_activeBank (w : Word) (s : State) : (setBusData w s).activeBank = s.activeBank := rfl
@[simp] theorem setBusData_swapReq (w : Word) (s : State) : (setBusData w s).swapReq = s.swapReq := rfl
@[simp] theorem setBusData_wtLock (w : Word) (s : State) : (setBusData w s).wtLock = s.wtLock := rfl
@[simp] theorem setBusData_wtBlen0 (w : Word) (s : State) : (setBusData w s).wtBlen0 = s.wtBlen0 := rfl
@[simp] theorem setBusData_wtBlen1 (w : Word) (s : State) : (setBusData w s).wtBlen1 = s.wtBlen1 := rfl
@[simp] theorem setBusData_patch (w : Word) (s : State) : (setBusData w s).patch = s.patch := rfl
@[simp] theorem setBusData_cc (w : Word) (s : State) : (setBusData w s).cc = s.cc := rfl
@[simp] theorem setBusData_depth (w : Word) (s : State) : (setBusData w s).depth = s.depth := rfl
@[simp] theorem setBusData_voice (w : Word) (s : State) : (setBusData w s).voice = s.voice := rfl
@[simp] theorem setBusData_ram (w : Word) (s : State) : (setBusData w s).ram = s.ram := rfl
@[simp] theorem setBusData_agenda (w : Word) (s : State) : (setBusData w s).agenda = s.agenda := rfl
@[simp] theorem setBusData_busData (w : Word) (s : State) : (setBusData w s).busData = w := rfl
@[simp] theorem setBusData_epoch (w : Word) (s : State) : (setBusData w s).epoch = s.epoch := rfl

@[simp] theorem setRamWord_busy (a : Nat) (w : Word) (s : State) : (setRamWord a w s).busy = s.busy := rfl
@[simp] theorem setRamWord_fault (a : Nat) (w : Word) (s : State) : (setRamWord a w s).fault = s.fault := rfl
@[simp] theorem setRamWord_panicPend (a : Nat) (w : Word) (s : State) : (setRamWord a w s).panicPend = s.panicPend := rfl
@[simp] theorem setRamWord_arg (a : Nat) (w : Word) (s : State) : (setRamWord a w s).arg = s.arg := rfl
@[simp] theorem setRamWord_result (a : Nat) (w : Word) (s : State) : (setRamWord a w s).result = s.result := rfl
@[simp] theorem setRamWord_errCause (a : Nat) (w : Word) (s : State) : (setRamWord a w s).errCause = s.errCause := rfl
@[simp] theorem setRamWord_errInfo (a : Nat) (w : Word) (s : State) : (setRamWord a w s).errInfo = s.errInfo := rfl
@[simp] theorem setRamWord_errLoc (a : Nat) (w : Word) (s : State) : (setRamWord a w s).errLoc = s.errLoc := rfl
@[simp] theorem setRamWord_irqStatus (a : Nat) (w : Word) (s : State) : (setRamWord a w s).irqStatus = s.irqStatus := rfl
@[simp] theorem setRamWord_irqEnable (a : Nat) (w : Word) (s : State) : (setRamWord a w s).irqEnable = s.irqEnable := rfl
@[simp] theorem setRamWord_sampleRate (a : Nat) (w : Word) (s : State) : (setRamWord a w s).sampleRate = s.sampleRate := rfl
@[simp] theorem setRamWord_blockLen (a : Nat) (w : Word) (s : State) : (setRamWord a w s).blockLen = s.blockLen := rfl
@[simp] theorem setRamWord_midiCount (a : Nat) (w : Word) (s : State) : (setRamWord a w s).midiCount = s.midiCount := rfl
@[simp] theorem setRamWord_atmCount (a : Nat) (w : Word) (s : State) : (setRamWord a w s).atmCount = s.atmCount := rfl
@[simp] theorem setRamWord_schedI (a : Nat) (w : Word) (s : State) : (setRamWord a w s).schedI = s.schedI := rfl
@[simp] theorem setRamWord_mcur (a : Nat) (w : Word) (s : State) : (setRamWord a w s).mcur = s.mcur := rfl
@[simp] theorem setRamWord_acur (a : Nat) (w : Word) (s : State) : (setRamWord a w s).acur = s.acur := rfl
@[simp] theorem setRamWord_lastTickM (a : Nat) (w : Word) (s : State) : (setRamWord a w s).lastTickM = s.lastTickM := rfl
@[simp] theorem setRamWord_lastTickA (a : Nat) (w : Word) (s : State) : (setRamWord a w s).lastTickA = s.lastTickA := rfl
@[simp] theorem setRamWord_pitchBend (a : Nat) (w : Word) (s : State) : (setRamWord a w s).pitchBend = s.pitchBend := rfl
@[simp] theorem setRamWord_activeBank (a : Nat) (w : Word) (s : State) : (setRamWord a w s).activeBank = s.activeBank := rfl
@[simp] theorem setRamWord_swapReq (a : Nat) (w : Word) (s : State) : (setRamWord a w s).swapReq = s.swapReq := rfl
@[simp] theorem setRamWord_wtLock (a : Nat) (w : Word) (s : State) : (setRamWord a w s).wtLock = s.wtLock := rfl
@[simp] theorem setRamWord_wtBlen0 (a : Nat) (w : Word) (s : State) : (setRamWord a w s).wtBlen0 = s.wtBlen0 := rfl
@[simp] theorem setRamWord_wtBlen1 (a : Nat) (w : Word) (s : State) : (setRamWord a w s).wtBlen1 = s.wtBlen1 := rfl
@[simp] theorem setRamWord_patch (a : Nat) (w : Word) (s : State) : (setRamWord a w s).patch = s.patch := rfl
@[simp] theorem setRamWord_cc (a : Nat) (w : Word) (s : State) : (setRamWord a w s).cc = s.cc := rfl
@[simp] theorem setRamWord_depth (a : Nat) (w : Word) (s : State) : (setRamWord a w s).depth = s.depth := rfl
@[simp] theorem setRamWord_voice (a : Nat) (w : Word) (s : State) : (setRamWord a w s).voice = s.voice := rfl
@[simp] theorem setRamWord_ram (a : Nat) (w : Word) (s : State) : (setRamWord a w s).ram = memPutWord s.ram a w := rfl
@[simp] theorem setRamWord_agenda (a : Nat) (w : Word) (s : State) : (setRamWord a w s).agenda = s.agenda := rfl
@[simp] theorem setRamWord_busData (a : Nat) (w : Word) (s : State) : (setRamWord a w s).busData = s.busData := rfl
@[simp] theorem setRamWord_epoch (a : Nat) (w : Word) (s : State) : (setRamWord a w s).epoch = s.epoch := rfl

@[simp] theorem clearFault_busy (s : State) : (clearFault s).busy = s.busy := rfl
@[simp] theorem clearFault_fault (s : State) : (clearFault s).fault = false := rfl
@[simp] theorem clearFault_panicPend (s : State) : (clearFault s).panicPend = s.panicPend := rfl
@[simp] theorem clearFault_arg (s : State) : (clearFault s).arg = s.arg := rfl
@[simp] theorem clearFault_result (s : State) : (clearFault s).result = s.result := rfl
@[simp] theorem clearFault_errCause (s : State) : (clearFault s).errCause = .none := rfl
@[simp] theorem clearFault_errInfo (s : State) : (clearFault s).errInfo = s.errInfo := rfl
@[simp] theorem clearFault_errLoc (s : State) : (clearFault s).errLoc = s.errLoc := rfl
@[simp] theorem clearFault_irqStatus (s : State) : (clearFault s).irqStatus = s.irqStatus := rfl
@[simp] theorem clearFault_irqEnable (s : State) : (clearFault s).irqEnable = s.irqEnable := rfl
@[simp] theorem clearFault_sampleRate (s : State) : (clearFault s).sampleRate = s.sampleRate := rfl
@[simp] theorem clearFault_blockLen (s : State) : (clearFault s).blockLen = s.blockLen := rfl
@[simp] theorem clearFault_midiCount (s : State) : (clearFault s).midiCount = s.midiCount := rfl
@[simp] theorem clearFault_atmCount (s : State) : (clearFault s).atmCount = s.atmCount := rfl
@[simp] theorem clearFault_schedI (s : State) : (clearFault s).schedI = s.schedI := rfl
@[simp] theorem clearFault_mcur (s : State) : (clearFault s).mcur = s.mcur := rfl
@[simp] theorem clearFault_acur (s : State) : (clearFault s).acur = s.acur := rfl
@[simp] theorem clearFault_lastTickM (s : State) : (clearFault s).lastTickM = s.lastTickM := rfl
@[simp] theorem clearFault_lastTickA (s : State) : (clearFault s).lastTickA = s.lastTickA := rfl
@[simp] theorem clearFault_pitchBend (s : State) : (clearFault s).pitchBend = s.pitchBend := rfl
@[simp] theorem clearFault_activeBank (s : State) : (clearFault s).activeBank = s.activeBank := rfl
@[simp] theorem clearFault_swapReq (s : State) : (clearFault s).swapReq = s.swapReq := rfl
@[simp] theorem clearFault_wtLock (s : State) : (clearFault s).wtLock = s.wtLock := rfl
@[simp] theorem clearFault_wtBlen0 (s : State) : (clearFault s).wtBlen0 = s.wtBlen0 := rfl
@[simp] theorem clearFault_wtBlen1 (s : State) : (clearFault s).wtBlen1 = s.wtBlen1 := rfl
@[simp] theorem clearFault_patch (s : State) : (clearFault s).patch = s.patch := rfl
@[simp] theorem clearFault_cc (s : State) : (clearFault s).cc = s.cc := rfl
@[simp] theorem clearFault_depth (s : State) : (clearFault s).depth = s.depth := rfl
@[simp] theorem clearFault_voice (s : State) : (clearFault s).voice = s.voice := rfl
@[simp] theorem clearFault_ram (s : State) : (clearFault s).ram = s.ram := rfl
@[simp] theorem clearFault_agenda (s : State) : (clearFault s).agenda = s.agenda := rfl
@[simp] theorem clearFault_busData (s : State) : (clearFault s).busData = s.busData := rfl
@[simp] theorem clearFault_epoch (s : State) : (clearFault s).epoch = s.epoch := rfl

@[simp] theorem modAllEnvs_busy (f : Env → Env) (s : State) : (modAllEnvs f s).busy = s.busy := rfl
@[simp] theorem modAllEnvs_fault (f : Env → Env) (s : State) : (modAllEnvs f s).fault = s.fault := rfl
@[simp] theorem modAllEnvs_panicPend (f : Env → Env) (s : State) : (modAllEnvs f s).panicPend = s.panicPend := rfl
@[simp] theorem modAllEnvs_arg (f : Env → Env) (s : State) : (modAllEnvs f s).arg = s.arg := rfl
@[simp] theorem modAllEnvs_result (f : Env → Env) (s : State) : (modAllEnvs f s).result = s.result := rfl
@[simp] theorem modAllEnvs_errCause (f : Env → Env) (s : State) : (modAllEnvs f s).errCause = s.errCause := rfl
@[simp] theorem modAllEnvs_errInfo (f : Env → Env) (s : State) : (modAllEnvs f s).errInfo = s.errInfo := rfl
@[simp] theorem modAllEnvs_errLoc (f : Env → Env) (s : State) : (modAllEnvs f s).errLoc = s.errLoc := rfl
@[simp] theorem modAllEnvs_irqStatus (f : Env → Env) (s : State) : (modAllEnvs f s).irqStatus = s.irqStatus := rfl
@[simp] theorem modAllEnvs_irqEnable (f : Env → Env) (s : State) : (modAllEnvs f s).irqEnable = s.irqEnable := rfl
@[simp] theorem modAllEnvs_sampleRate (f : Env → Env) (s : State) : (modAllEnvs f s).sampleRate = s.sampleRate := rfl
@[simp] theorem modAllEnvs_blockLen (f : Env → Env) (s : State) : (modAllEnvs f s).blockLen = s.blockLen := rfl
@[simp] theorem modAllEnvs_midiCount (f : Env → Env) (s : State) : (modAllEnvs f s).midiCount = s.midiCount := rfl
@[simp] theorem modAllEnvs_atmCount (f : Env → Env) (s : State) : (modAllEnvs f s).atmCount = s.atmCount := rfl
@[simp] theorem modAllEnvs_schedI (f : Env → Env) (s : State) : (modAllEnvs f s).schedI = s.schedI := rfl
@[simp] theorem modAllEnvs_mcur (f : Env → Env) (s : State) : (modAllEnvs f s).mcur = s.mcur := rfl
@[simp] theorem modAllEnvs_acur (f : Env → Env) (s : State) : (modAllEnvs f s).acur = s.acur := rfl
@[simp] theorem modAllEnvs_lastTickM (f : Env → Env) (s : State) : (modAllEnvs f s).lastTickM = s.lastTickM := rfl
@[simp] theorem modAllEnvs_lastTickA (f : Env → Env) (s : State) : (modAllEnvs f s).lastTickA = s.lastTickA := rfl
@[simp] theorem modAllEnvs_pitchBend (f : Env → Env) (s : State) : (modAllEnvs f s).pitchBend = s.pitchBend := rfl
@[simp] theorem modAllEnvs_activeBank (f : Env → Env) (s : State) : (modAllEnvs f s).activeBank = s.activeBank := rfl
@[simp] theorem modAllEnvs_swapReq (f : Env → Env) (s : State) : (modAllEnvs f s).swapReq = s.swapReq := rfl
@[simp] theorem modAllEnvs_wtLock (f : Env → Env) (s : State) : (modAllEnvs f s).wtLock = s.wtLock := rfl
@[simp] theorem modAllEnvs_wtBlen0 (f : Env → Env) (s : State) : (modAllEnvs f s).wtBlen0 = s.wtBlen0 := rfl
@[simp] theorem modAllEnvs_wtBlen1 (f : Env → Env) (s : State) : (modAllEnvs f s).wtBlen1 = s.wtBlen1 := rfl
@[simp] theorem modAllEnvs_patch (f : Env → Env) (s : State) : (modAllEnvs f s).patch = s.patch := rfl
@[simp] theorem modAllEnvs_cc (f : Env → Env) (s : State) : (modAllEnvs f s).cc = s.cc := rfl
@[simp] theorem modAllEnvs_depth (f : Env → Env) (s : State) : (modAllEnvs f s).depth = s.depth := rfl
@[simp] theorem modAllEnvs_voice (f : Env → Env) (s : State) : (modAllEnvs f s).voice = vmap (fun V => { V with env := vmap f V.env }) s.voice := rfl
@[simp] theorem modAllEnvs_ram (f : Env → Env) (s : State) : (modAllEnvs f s).ram = s.ram := rfl
@[simp] theorem modAllEnvs_agenda (f : Env → Env) (s : State) : (modAllEnvs f s).agenda = s.agenda := rfl
@[simp] theorem modAllEnvs_busData (f : Env → Env) (s : State) : (modAllEnvs f s).busData = s.busData := rfl
@[simp] theorem modAllEnvs_epoch (f : Env → Env) (s : State) : (modAllEnvs f s).epoch = s.epoch := rfl

@[simp] theorem startBlock_busy (ticks : Nat × Nat) (s : State) : (startBlock ticks s).busy = true := rfl
@[simp] theorem startBlock_fault (ticks : Nat × Nat) (s : State) : (startBlock ticks s).fault = s.fault := rfl
@[simp] theorem startBlock_panicPend (ticks : Nat × Nat) (s : State) : (startBlock ticks s).panicPend = s.panicPend := rfl
@[simp] theorem startBlock_arg (ticks : Nat × Nat) (s : State) : (startBlock ticks s).arg = s.arg := rfl
@[simp] theorem startBlock_result (ticks : Nat × Nat) (s : State) : (startBlock ticks s).result = s.result := rfl
@[simp] theorem startBlock_errCause (ticks : Nat × Nat) (s : State) : (startBlock ticks s).errCause = s.errCause := rfl
@[simp] theorem startBlock_errInfo (ticks : Nat × Nat) (s : State) : (startBlock ticks s).errInfo = s.errInfo := rfl
@[simp] theorem startBlock_errLoc (ticks : Nat × Nat) (s : State) : (startBlock ticks s).errLoc = s.errLoc := rfl
@[simp] theorem startBlock_irqStatus (ticks : Nat × Nat) (s : State) : (startBlock ticks s).irqStatus = s.irqStatus := rfl
@[simp] theorem startBlock_irqEnable (ticks : Nat × Nat) (s : State) : (startBlock ticks s).irqEnable = s.irqEnable := rfl
@[simp] theorem startBlock_sampleRate (ticks : Nat × Nat) (s : State) : (startBlock ticks s).sampleRate = s.sampleRate := rfl
@[simp] theorem startBlock_blockLen (ticks : Nat × Nat) (s : State) : (startBlock ticks s).blockLen = s.blockLen := rfl
@[simp] theorem startBlock_midiCount (ticks : Nat × Nat) (s : State) : (startBlock ticks s).midiCount = s.midiCount := rfl
@[simp] theorem startBlock_atmCount (ticks : Nat × Nat) (s : State) : (startBlock ticks s).atmCount = s.atmCount := rfl
@[simp] theorem startBlock_schedI (ticks : Nat × Nat) (s : State) : (startBlock ticks s).schedI = 0#32 := rfl
@[simp] theorem startBlock_mcur (ticks : Nat × Nat) (s : State) : (startBlock ticks s).mcur = 0#32 := rfl
@[simp] theorem startBlock_acur (ticks : Nat × Nat) (s : State) : (startBlock ticks s).acur = 0#32 := rfl
@[simp] theorem startBlock_lastTickM (ticks : Nat × Nat) (s : State) : (startBlock ticks s).lastTickM = BitVec.ofNat 32 ticks.1 := rfl
@[simp] theorem startBlock_lastTickA (ticks : Nat × Nat) (s : State) : (startBlock ticks s).lastTickA = BitVec.ofNat 32 ticks.2 := rfl
@[simp] theorem startBlock_pitchBend (ticks : Nat × Nat) (s : State) : (startBlock ticks s).pitchBend = s.pitchBend := rfl
@[simp] theorem startBlock_activeBank (ticks : Nat × Nat) (s : State) : (startBlock ticks s).activeBank = s.activeBank := rfl
@[simp] theorem startBlock_swapReq (ticks : Nat × Nat) (s : State) : (startBlock ticks s).swapReq = s.swapReq := rfl
@[simp] theorem startBlock_wtLock (ticks : Nat × Nat) (s : State) : (startBlock ticks s).wtLock = s.wtLock := rfl
@[simp] theorem startBlock_wtBlen0 (ticks : Nat × Nat) (s : State) : (startBlock ticks s).wtBlen0 = s.wtBlen0 := rfl
@[simp] theorem startBlock_wtBlen1 (ticks : Nat × Nat) (s : State) : (startBlock ticks s).wtBlen1 = s.wtBlen1 := rfl
@[simp] theorem startBlock_patch (ticks : Nat × Nat) (s : State) : (startBlock ticks s).patch = s.patch := rfl
@[simp] theorem startBlock_cc (ticks : Nat × Nat) (s : State) : (startBlock ticks s).cc = s.cc := rfl
@[simp] theorem startBlock_depth (ticks : Nat × Nat) (s : State) : (startBlock ticks s).depth = s.depth := rfl
@[simp] theorem startBlock_voice (ticks : Nat × Nat) (s : State) : (startBlock ticks s).voice = s.voice := rfl
@[simp] theorem startBlock_ram (ticks : Nat × Nat) (s : State) : (startBlock ticks s).ram = s.ram := rfl
@[simp] theorem startBlock_agenda (ticks : Nat × Nat) (s : State) : (startBlock ticks s).agenda = s.agenda := rfl
@[simp] theorem startBlock_busData (ticks : Nat × Nat) (s : State) : (startBlock ticks s).busData = s.busData := rfl
@[simp] theorem startBlock_epoch (ticks : Nat × Nat) (s : State) : (startBlock ticks s).epoch = s.epoch := rfl

@[simp] theorem blockEnd_busy (s : State) : (blockEnd s).busy = false := rfl
@[simp] theorem blockEnd_fault (s : State) : (blockEnd s).fault = s.fault := rfl
@[simp] theorem blockEnd_panicPend (s : State) : (blockEnd s).panicPend = s.panicPend := rfl
@[simp] theorem blockEnd_arg (s : State) : (blockEnd s).arg = s.arg := rfl
@[simp] theorem blockEnd_result (s : State) : (blockEnd s).result = s.result := rfl
@[simp] theorem blockEnd_errCause (s : State) : (blockEnd s).errCause = s.errCause := rfl
@[simp] theorem blockEnd_errInfo (s : State) : (blockEnd s).errInfo = s.errInfo := rfl
@[simp] theorem blockEnd_errLoc (s : State) : (blockEnd s).errLoc = s.errLoc := rfl
@[simp] theorem blockEnd_irqStatus (s : State) : (blockEnd s).irqStatus = irqSetDone s.irqStatus := rfl
@[simp] theorem blockEnd_irqEnable (s : State) : (blockEnd s).irqEnable = s.irqEnable := rfl
@[simp] theorem blockEnd_sampleRate (s : State) : (blockEnd s).sampleRate = s.sampleRate := rfl
@[simp] theorem blockEnd_blockLen (s : State) : (blockEnd s).blockLen = s.blockLen := rfl
@[simp] theorem blockEnd_midiCount (s : State) : (blockEnd s).midiCount = s.midiCount := rfl
@[simp] theorem blockEnd_atmCount (s : State) : (blockEnd s).atmCount = s.atmCount := rfl
@[simp] theorem blockEnd_schedI (s : State) : (blockEnd s).schedI = s.schedI := rfl
@[simp] theorem blockEnd_mcur (s : State) : (blockEnd s).mcur = s.mcur := rfl
@[simp] theorem blockEnd_acur (s : State) : (blockEnd s).acur = s.acur := rfl
@[simp] theorem blockEnd_lastTickM (s : State) : (blockEnd s).lastTickM = s.lastTickM := rfl
@[simp] theorem blockEnd_lastTickA (s : State) : (blockEnd s).lastTickA = s.lastTickA := rfl
@[simp] theorem blockEnd_pitchBend (s : State) : (blockEnd s).pitchBend = s.pitchBend := rfl
@[simp] theorem blockEnd_activeBank (s : State) : (blockEnd s).activeBank = s.activeBank := rfl
@[simp] theorem blockEnd_swapReq (s : State) : (blockEnd s).swapReq = s.swapReq := rfl
@[simp] theorem blockEnd_wtLock (s : State) : (blockEnd s).wtLock = s.wtLock := rfl
@[simp] theorem blockEnd_wtBlen0 (s : State) : (blockEnd s).wtBlen0 = s.wtBlen0 := rfl
@[simp] theorem blockEnd_wtBlen1 (s : State) : (blockEnd s).wtBlen1 = s.wtBlen1 := rfl
@[simp] theorem blockEnd_patch (s : State) : (blockEnd s).patch = s.patch := rfl
@[simp] theorem blockEnd_cc (s : State) : (blockEnd s).cc = s.cc := rfl
@[simp] theorem blockEnd_depth (s : State) : (blockEnd s).depth = s.depth := rfl
@[simp] theorem blockEnd_voice (s : State) : (blockEnd s).voice = s.voice := rfl
@[simp] theorem blockEnd_ram (s : State) : (blockEnd s).ram = s.ram := rfl
@[simp] theorem blockEnd_agenda (s : State) : (blockEnd s).agenda = s.agenda := rfl
@[simp] theorem blockEnd_busData (s : State) : (blockEnd s).busData = s.busData := rfl
@[simp] theorem blockEnd_epoch (s : State) : (blockEnd s).epoch = s.epoch := rfl

end Sys2Proof.Machine
end

