-- ==== Sys2Proof/Laws/Memory.lean ====
section
/-! SUPPORT. RAM: a read after a write, the bytes a write leaves alone, and the canonical form. -/

namespace Sys2Proof.Machine

open Sys2Proof.Config

/-! ### Bytes -/

theorem memGet_memPut_same (m : Memory) (a : Nat) (b : Byte) : memGet (memPut m a b) a = some b := by
  induction m with
  | nil => simp [memPut, memGet]
  | cons h t ih =>
    obtain ⟨k, c⟩ := h
    simp only [memPut]
    split
    · simp [memGet]
    · split
      · simp [memGet]
      · rename_i h1 h2
        rw [memGet, if_neg (by omega)]; exact ih

theorem memGet_memPut_other (m : Memory) (a x : Nat) (b : Byte) (h : x ≠ a) :
    memGet (memPut m a b) x = memGet m x := by
  induction m with
  | nil => simp [memPut, memGet]; omega
  | cons hd t ih =>
    obtain ⟨k, c⟩ := hd
    simp only [memPut]
    split
    · rw [memGet, if_neg (by omega)]
    · split
      · subst_vars; simp only [memGet]; rw [if_neg (by omega), if_neg (by omega)]
      · simp only [memGet, ih]

/-- Every address of `m` is at least `a`. -/
theorem memWf_cons_iff (k : Nat) (b : Byte) (t : Memory) :
    Memory.wf ((k, b) :: t) = true ↔ (∀ c ∈ t, k < c.1) ∧ Memory.wf t = true := by
  induction t generalizing k b with
  | nil => simp [Memory.wf]
  | cons h u ih =>
    obtain ⟨l, c⟩ := h
    simp only [Memory.wf, Bool.and_eq_true, decide_eq_true_eq, List.mem_cons, forall_eq_or_imp]
    constructor
    · rintro ⟨h1, h2⟩
      exact ⟨⟨h1, fun x hx => lt_trans h1 (((ih l c).1 h2).1 x hx)⟩, h2⟩
    · rintro ⟨⟨h1, _⟩, h3⟩
      exact ⟨h1, h3⟩

/-- The addresses a write lists are those listed before and its own. -/
theorem mem_memPut (m : Memory) (a : Nat) (b : Byte) (c : Host.Cell) (h : c ∈ memPut m a b) :
    c = (a, b) ∨ c ∈ m := by
  induction m with
  | nil => simpa [memPut] using h
  | cons hd t ih =>
    obtain ⟨k, d⟩ := hd
    simp only [memPut] at h
    split at h
    · simpa using h
    · split at h
      · rcases List.mem_cons.1 h with h | h
        · exact .inl h
        · exact .inr (List.mem_cons_of_mem _ h)
      · rcases List.mem_cons.1 h with h | h
        · exact .inr (by simp [h])
        · rcases ih h with h | h
          · exact .inl h
          · exact .inr (List.mem_cons_of_mem _ h)

/-- A write keeps the canonical form. -/
theorem memPut_wf (m : Memory) (a : Nat) (b : Byte) (h : Memory.wf m = true) :
    Memory.wf (memPut m a b) = true := by
  induction m with
  | nil => rfl
  | cons hd t ih =>
    obtain ⟨k, d⟩ := hd
    obtain ⟨h1, h2⟩ := (memWf_cons_iff k d t).1 h
    simp only [memPut]
    split
    · exact (memWf_cons_iff a b _).2
        ⟨fun c hc => (List.mem_cons.1 hc).elim (fun e => by simp [e]; omega)
          (fun hc => lt_trans (by omega) (h1 c hc)), h⟩
    · split
      · subst_vars; exact (memWf_cons_iff _ b t).2 ⟨h1, h2⟩
      · refine (memWf_cons_iff k d _).2 ⟨fun c hc => ?_, ih h2⟩
        rcases mem_memPut t a b c hc with rfl | hc
        · show k < a; omega
        · exact h1 c hc

theorem memPutWord_wf (m : Memory) (a : Nat) (w : Word) (h : Memory.wf m = true) :
    Memory.wf (memPutWord m a w) = true := by
  unfold memPutWord
  exact memPut_wf _ _ _ (memPut_wf _ _ _ (memPut_wf _ _ _ (memPut_wf _ _ _ h)))

/-- The machine after reset lists no byte, which is canonical. -/
theorem reset_ram_wf : Memory.wf State.reset.ram = true := rfl

/-! ### Words -/

/-- A word write changes no byte outside its four. -/
theorem ramByte_setRamWord_other (s : State) (a x : Nat) (w : Word) (h : x < a ∨ a + 4 ≤ x) :
    ramByte (setRamWord a w s) x = ramByte s x := by
  simp only [ramByte, setRamWord, memPutWord]
  rw [memGet_memPut_other, memGet_memPut_other, memGet_memPut_other, memGet_memPut_other] <;> omega

/-- A word write puts byte `8i+7:8i` of the word at `a + i` (R206). -/
theorem ramByte_setRamWord_same (s : State) (a : Nat) (w : Word) :
    ramByte (setRamWord a w s) a = w.extractLsb' 0 8 ∧
    ramByte (setRamWord a w s) (a + 1) = w.extractLsb' 8 8 ∧
    ramByte (setRamWord a w s) (a + 2) = w.extractLsb' 16 8 ∧
    ramByte (setRamWord a w s) (a + 3) = w.extractLsb' 24 8 := by
  simp only [ramByte, setRamWord, memPutWord]
  refine ⟨?_, ?_, ?_, ?_⟩
  · rw [memGet_memPut_other, memGet_memPut_other, memGet_memPut_other, memGet_memPut_same] <;> simp
  · rw [memGet_memPut_other, memGet_memPut_other, memGet_memPut_same] <;> simp
  · rw [memGet_memPut_other, memGet_memPut_same] <;> simp
  · rw [memGet_memPut_same]; simp

/-- A word read after a word write to the same address gives the word (R244). -/
theorem ramWord_setRamWord_same (s : State) (a : Nat) (w : Word) :
    ramWord (setRamWord a w s) a = w := by
  obtain ⟨h0, h1, h2, h3⟩ := ramByte_setRamWord_same s a w
  rw [ramWord, h0, h1, h2, h3]
  ext i hi
  simp only [BitVec.getElem_append, BitVec.getElem_extractLsb']
  split
  · simp [BitVec.getLsbD_eq_getElem hi]
  · split
    · rw [← BitVec.getLsbD_eq_getElem hi]; congr 1; omega
    · split
      · rw [← BitVec.getLsbD_eq_getElem hi]; congr 1; omega
      · rw [← BitVec.getLsbD_eq_getElem hi]; congr 1; omega

/-- A word write leaves every word it does not overlap. -/
theorem ramWord_setRamWord_other (s : State) (a x : Nat) (w : Word) (h : x + 4 ≤ a ∨ a + 4 ≤ x) :
    ramWord (setRamWord a w s) x = ramWord s x := by
  rw [ramWord, ramWord, ramByte_setRamWord_other _ _ _ _ (by omega),
    ramByte_setRamWord_other _ _ _ _ (by omega), ramByte_setRamWord_other _ _ _ _ (by omega),
    ramByte_setRamWord_other _ _ _ _ (by omega)]

end Sys2Proof.Machine
end

