-- ==== Sys2Proof/Laws/Ops.lean ====
section
/-! SUPPORT. What each shared operation can do, said once. -/

namespace Sys2Proof.Machine

open Sys2Proof.Config

/-! ### Vectors -/

@[simp] theorem vmap_get {α β : Type} {n : Nat} (f : α → β) (xs : Vector α n) (i : Nat) (h : i < n) :
    (vmap f xs)[i] = f xs[i] := by
  simp only [vmap, Vector.getElem_mk, List.getElem_toArray, List.getElem_map]
  rfl

@[simp] theorem vmod_get_same {α : Type} {n : Nat} (xs : Vector α n) (i : Fin n) (f : α → α) :
    (vmod xs i f)[i.val] = f xs[i.val] := by
  simp [vmod]

theorem vmod_get_other {α : Type} {n : Nat} (xs : Vector α n) (i : Fin n) (f : α → α) (j : Nat)
    (hj : j < n) (h : i.val ≠ j) : (vmod xs i f)[j] = xs[j] := by
  simp [vmod, h]

/-! ### Faults -/

/-- Outside a block a fault only makes its record, and only if none is recorded (R910, R912). -/
theorem raise_idle (c : Cause) (info loc : Word) (s : State) (h : s.busy = false) :
    raise c info loc s = recordFault c info loc s := by
  unfold raise abortBlock
  rw [if_neg]
  unfold recordFault
  split <;> simp [h]

/-- In the fault state a fault outside a block changes nothing (R912). -/
theorem raise_faulted (c : Cause) (info loc : Word) (s : State) (hf : s.fault = true)
    (h : s.busy = false) : raise c info loc s = s := by
  rw [raise_idle _ _ _ _ h, recordFault, if_pos hf]

/-- What fault entry may change: STATUS, the record, IRQ_STATUS and the envelopes a pending panic kills. -/
theorem raise_frame (c : Cause) (info loc : Word) (s : State) :
    ∃ b f p cause i l q V, raise c info loc s =
      { s with busy := b, fault := f, panicPend := p, errCause := cause, errInfo := i, errLoc := l,
               irqStatus := q, voice := V } := by
  unfold raise abortBlock recordFault
  by_cases hf : s.fault = true <;> by_cases hb : s.busy = true <;> by_cases hp : s.panicPend = true <;>
    simp only [hf, hb, hp, if_true, if_false, Bool.false_eq_true] <;>
    exact ⟨_, _, _, _, _, _, _, _, rfl⟩

/-! ### Command acceptance -/

/-- An accepted format VU command has its effect (R301 step 7). -/
theorem acceptVU_ok (c : Word) (voice : BitVec 8) (unit : BitVec 4) (units : Nat)
    (f : Fin NVOICE → Fin units → State → State) (s : State) (hf : s.fault = false)
    (hb : s.busy = false) (hv : voice.toNat < NVOICE) (hu : unit.toNat < units) :
    acceptVU c voice unit units f s = f ⟨voice.toNat, hv⟩ ⟨unit.toNat, hu⟩ s := by
  unfold acceptVU
  rw [if_neg (by simp [hf]), if_neg (by simp [hb]), dif_pos hv, dif_pos hu]

/-- All that command acceptance can do (R301, R916). -/
theorem acceptVU_cases (c : Word) (voice : BitVec 8) (unit : BitVec 4) (units : Nat)
    (f : Fin NVOICE → Fin units → State → State) (s : State) :
    (s.fault = true ∧ acceptVU c voice unit units f s = s) ∨
    (s.fault = false ∧ s.busy = true ∧ acceptVU c voice unit units f s = raiseAccess .cmdBusy c s) ∨
    (s.fault = false ∧ s.busy = false ∧ NVOICE ≤ voice.toNat ∧
      acceptVU c voice unit units f s = raiseAccess .badVoice c s) ∨
    (s.fault = false ∧ s.busy = false ∧ voice.toNat < NVOICE ∧ units ≤ unit.toNat ∧
      acceptVU c voice unit units f s = raiseAccess .badUnit c s) ∨
    (s.fault = false ∧ s.busy = false ∧ ∃ (hv : voice.toNat < NVOICE) (hu : unit.toNat < units),
      acceptVU c voice unit units f s = f ⟨voice.toNat, hv⟩ ⟨unit.toNat, hu⟩ s) := by
  unfold acceptVU
  by_cases hf : s.fault = true
  · exact .inl ⟨hf, by rw [if_pos hf]⟩
  · have hf' : s.fault = false := by simpa using hf
    by_cases hb : s.busy = true
    · exact .inr (.inl ⟨hf', hb, by rw [if_neg hf, if_pos hb]⟩)
    · have hb' : s.busy = false := by simpa using hb
      rw [if_neg hf, if_neg hb]
      by_cases hv : voice.toNat < NVOICE
      · by_cases hu : unit.toNat < units
        · exact .inr (.inr (.inr (.inr ⟨hf', hb', hv, hu, by rw [dif_pos hv, dif_pos hu]⟩)))
        · exact .inr (.inr (.inr (.inl ⟨hf', hb', hv, by omega, by rw [dif_pos hv, dif_neg hu]⟩)))
      · exact .inr (.inr (.inl ⟨hf', hb', by omega, by rw [dif_neg hv]⟩))

/-- All that acceptance of a format G command can do (R301). -/
theorem acceptG_cases (c : Word) (f : State → State) (s : State) :
    (s.fault = true ∧ acceptG c f s = s) ∨
    (s.fault = false ∧ s.busy = true ∧ acceptG c f s = raiseAccess .cmdBusy c s) ∨
    (s.fault = false ∧ s.busy = false ∧ acceptG c f s = f s) := by
  unfold acceptG
  cases hf : s.fault <;> cases hb : s.busy <;> simp

/-! ### Meanings -/

/-- No meaning stops: every instruction has a next state (R902). -/
theorem exec_next (i : Instr) (s : State) : ∃ t, exec i s = .next t := by
  cases i <;> exact ⟨_, rfl⟩

end Sys2Proof.Machine
end

