-- ==== Sys2Proof/Laws/Block.lean ====
section
/-! SUPPORT. What each part of a sample can do, said once: the swap check, a dispatched event, the events of
one queue, the voices and the end of the sample (R805-R807, R820). -/

namespace Sys2Proof.Machine

open Sys2Proof.Config

/-- The swap check writes only ACTIVE_BANK, SWAP_REQ and IRQ_STATUS (R233). -/
theorem swapCheck_frame (s : State) : ∃ b r q, swapCheck s =
    { s with activeBank := b, swapReq := r, irqStatus := q } := by
  unfold swapCheck
  split <;> exact ⟨_, _, _, rfl⟩

/-- Without a request, or with the lock held, the swap check changes nothing (R233). -/
theorem swapCheck_idle (s : State) (h : s.swapReq = false ∨ s.wtLock = true) : swapCheck s = s := by
  unfold swapCheck
  rw [if_neg]
  rcases h with h | h <;> simp [h]

theorem onVoice_frame (target : BitVec 16) (f : Fin NVOICE → State → State) (s : State)
    (h : ∀ v, ∃ V, f v s = { s with voice := V }) : ∃ V, onVoice target f s = { s with voice := V } := by
  unfold onVoice
  split
  · exact h _
  · exact ⟨s.voice, rfl⟩

/-- A write through the address map to a location an automation event may name writes only the patch
registers and the depth table (R824). -/
theorem writeLoc_automatable_frame (l : Loc) (x : Word) (s : State) (h : l.isAutomatable = true) :
    ∃ p d, writeLoc s x l = { s with patch := p, depth := d } := by
  cases l <;> first | exact ⟨_, _, rfl⟩ | exact absurd h (by simp [Loc.isAutomatable])

/-- An event is one of the five the queues hold. -/
theorem decodeEvent_cases (q : Queue) (w0 w1 : Word) (i : Instr) (h : decodeEvent q w0 w1 = .ok i) :
    (∃ k t x, i = .evNoteOn k t x) ∨ (∃ k t x, i = .evNoteOff k t x) ∨
    (∃ k t x, i = .evControllerM k t x) ∨ (∃ k t x, i = .evPitchBend k t x) ∨
    (∃ k t x, i = .evAutomation k t x) := by
  unfold decodeEvent at h
  split at h <;> cases h
  · exact .inl ⟨_, _, _, rfl⟩
  · exact .inr (.inl ⟨_, _, _, rfl⟩)
  · exact .inr (.inr (.inl ⟨_, _, _, rfl⟩))
  · exact .inr (.inr (.inr (.inl ⟨_, _, _, rfl⟩)))
  · exact .inr (.inr (.inr (.inr ⟨_, _, _, rfl⟩)))

/-- What dispatching an entry may write: voices, patch registers, depths, the CC table and PITCH_BEND (R250). -/
theorem dispatch_frame (q : Queue) (j : Nat) (s : State) : ∃ V p d c b, dispatch q j s =
    .next { s with voice := V, patch := p, depth := d, cc := c, pitchBend := b } := by
  unfold dispatch
  split
  · rename_i i h
    rcases decodeEvent_cases _ _ _ _ h with
      ⟨k, t, x, rfl⟩ | ⟨k, t, x, rfl⟩ | ⟨k, t, x, rfl⟩ | ⟨k, t, x, rfl⟩ | ⟨k, t, x, rfl⟩
    · obtain ⟨V, hV⟩ := onVoice_frame t
        (fun v => noteOnOp v (x.extractLsb' 0 7).toNat (x.extractLsb' 8 7).toNat) s fun v => ⟨_, rfl⟩
      exact ⟨V, _, _, _, _, congrArg _ hV⟩
    · obtain ⟨V, hV⟩ := onVoice_frame t (fun v => noteOffOp v (x.getLsbD 0)) s fun v => ⟨_, rfl⟩
      exact ⟨V, _, _, _, _, congrArg _ hV⟩
    · simp only [exec, execEvControllerM]
      split <;> exact ⟨_, _, _, _, _, rfl⟩
    · exact ⟨_, _, _, _, _, rfl⟩
    · simp only [exec, execEvAutomation, automationTarget]
      split
      · rename_i l hl
        split at hl
        · split at hl
          · rename_i ha
            cases hl
            obtain ⟨p, d, hp⟩ := writeLoc_automatable_frame _ x s ha
            exact ⟨_, p, d, _, _, congrArg _ hp⟩
          · cases hl
        · cases hl
      · exact ⟨_, _, _, _, _, rfl⟩
  · exact ⟨_, _, _, _, _, rfl⟩

/-- What the events of one queue may write: what one may, and the cursors. -/
theorem drain_frame (q : Queue) (n : Nat) (s : State) : ∃ V p d c b m a, drain q n s =
    .next { s with voice := V, patch := p, depth := d, cc := c, pitchBend := b, mcur := m, acur := a } := by
  induction n generalizing s with
  | zero => exact ⟨_, _, _, _, _, _, _, rfl⟩
  | succ n ih =>
    unfold drain
    split
    · obtain ⟨V, p, d, c, b, hd⟩ := dispatch_frame q (cursor q s).toNat s
      rw [hd]
      obtain ⟨V', p', d', c', b', m, a, h⟩ := ih (advance q
        { s with voice := V, patch := p, depth := d, cc := c, pitchBend := b })
      refine ⟨V', p', d', c', b', m, a, ?_⟩
      show drain q n (advance q _) = _
      rw [h]
      cases q <;> rfl
    · exact ⟨_, _, _, _, _, _, _, rfl⟩

/-- Two changes of the voices alone make one. -/
theorem voiceOnly_trans {s t u : State} (h : ∃ V, t = { s with voice := V })
    (k : ∃ V, u = { t with voice := V }) : ∃ V, u = { s with voice := V } := by
  obtain ⟨V, rfl⟩ := h
  obtain ⟨W, rfl⟩ := k
  exact ⟨W, rfl⟩

theorem voiceOscillators_frame (v : Fin NVOICE) (s : State) :
    ∃ V, voiceOscillators v s = { s with voice := V } := by
  unfold voiceOscillators
  exact voiceOnly_trans (voiceOnly_trans (voiceOnly_trans (voiceOnly_trans (voiceOnly_trans
    ⟨_, rfl⟩ ⟨_, rfl⟩) ⟨_, rfl⟩) ⟨_, rfl⟩) ⟨_, rfl⟩) ⟨_, rfl⟩

theorem voiceEnvelopes_frame (v : Fin NVOICE) (s : State) :
    ∃ V, voiceEnvelopes v s = { s with voice := V } := by
  have envs : ∀ (l : List (Fin NENV)) (t : State), ∃ V,
      l.foldl (fun s e => stepEnv v e s) t = { t with voice := V } := by
    intro l
    induction l with
    | nil => exact fun t => ⟨_, rfl⟩
    | cons e l ih => exact fun t => voiceOnly_trans (t := stepEnv v e t) ⟨_, rfl⟩ (ih _)
  exact envs _ s

/-- Stepping a voice writes only voices. -/
theorem voiceStep_frame (v : Fin NVOICE) (s : State) : ∃ V, (voiceStep v s).2 = { s with voice := V } :=
  voiceOnly_trans (voiceOnly_trans (voiceOnly_trans (voiceOscillators_frame v s)
    (voiceEnvelopes_frame v _)) (u := (voiceFilter v _).2) ⟨_, rfl⟩) ⟨_, rfl⟩

/-- In the states that differ from `s` in their voices only, `f` writes voice v alone, from voice v alone. -/
def ActsOn (v : Fin NVOICE) (s : State) (f : State → State) : Prop :=
  ∃ g : Voice → Voice, ∀ V : Vector Voice NVOICE,
    f { s with voice := V } = { s with voice := V.set v.val (g V[v]) v.isLt }

theorem ActsOn.comp {v : Fin NVOICE} {s : State} {f h : State → State} (hf : ActsOn v s f)
    (hh : ActsOn v s h) : ActsOn v s (fun t => h (f t)) := by
  obtain ⟨g, hg⟩ := hf
  obtain ⟨k, hk⟩ := hh
  refine ⟨fun W => k (g W), fun V => ?_⟩
  show h (f _) = _
  rw [hg, hk]
  simp

/-- An operation on voice v whose function may look at that voice. -/
theorem modVoice_actsOn (v : Fin NVOICE) (s : State) (k : Voice → Voice → Voice) (f : State → State)
    (h : ∀ V : Vector Voice NVOICE,
      f { s with voice := V } = modVoice v (k V[v]) { s with voice := V }) : ActsOn v s f :=
  ⟨fun W => k W W, h⟩

/-- The increments of both oscillators from the voice's own note (R810 steps 1 and 2). -/
theorem setPitches_actsOn (v : Fin NVOICE) (s : State) (p q : Voice → F32) (a b : F32) : ActsOn v s fun t =>
    setPitch v 1 b (q t.voice[v]) (setPitch v 0 a (p t.voice[v]) t) := by
  let inc (o : Fin NOSC) (spread pitch : F32) := oscSetUnisonPitch s.sampleRate s.patch.osc[o].uni.toNat spread pitch
  refine ⟨fun W => { W with osc := vmod (vmod W.osc 0 (inc 0 a (p W))) 1 (inc 1 b (q W)) }, fun V => ?_⟩
  simp only [setPitch, modOsc, modVoice]
  rw [show ∀ (f g : Voice → Voice), vmod (vmod V v f) v g = V.set v.val (g (f V[v])) v.isLt from
    fun f g => by simp [vmod]]

theorem mixFm_actsOn (v : Fin NVOICE) (o : Fin NOSC) (s : State) : ActsOn v s (mixFm v o) :=
  modVoice_actsOn v s (fun W U => { U with osc := vmod U.osc o fun O => { O with
    fmIn := fAdd (fMul s.patch.osc[o].fm0 W.osc[0].out) (fMul s.patch.osc[o].fm1 W.osc[1].out) } }) _
    fun _ => rfl

theorem stepOsc_actsOn (v : Fin NVOICE) (o : Fin NOSC) (s : State) : ActsOn v s (stepOsc v o) :=
  modVoice_actsOn v s (fun W U => { U with osc := vmod U.osc o (oscStep (waveAt s s.patch.osc[o].wave)
    (if o = 1 ∧ s.patch.osc[1].sync = true ∧ W.osc[0].wrap = true then some W.osc[0].syncPh else none)
    s.patch.osc[o].uni.toNat) }) _ fun _ => rfl

theorem voiceOscillators_actsOn (v : Fin NVOICE) (s : State) : ActsOn v s (voiceOscillators v) := by
  obtain ⟨g, hg⟩ := ((((setPitches_actsOn v s
    (fun W => fAdd (fAdd W.note s.pitchBend) s.patch.osc[0].tune)
    (fun W => fAdd (fAdd W.note s.pitchBend) s.patch.osc[1].tune)
    s.patch.osc[0].spread s.patch.osc[1].spread).comp (mixFm_actsOn v 0 s)).comp (mixFm_actsOn v 1 s)).comp
    (stepOsc_actsOn v 0 s)).comp (stepOsc_actsOn v 1 s)
  refine ⟨g, fun V => ?_⟩
  rw [← hg]
  rfl

theorem voiceEnvelopes_actsOn (v : Fin NVOICE) (s : State) : ActsOn v s (voiceEnvelopes v) := by
  have all : ∀ l : List (Fin NENV), ActsOn v s fun t => l.foldl (fun t e => stepEnv v e t) t := by
    intro l
    induction l with
    | nil => exact modVoice_actsOn v s (fun W _ => W) _ fun V => by simp [modVoice, vmod]
    | cons e l ih =>
      have one : ActsOn v s (stepEnv v e) :=
        modVoice_actsOn v s (fun _ U => { U with env := vmod U.env e (envStep s.patch.waitSamples) }) _
          fun _ => rfl
      exact one.comp ih
  exact all _

/-- What stepping voice v can do: its output and the voice it leaves are functions of that voice and of what is not
a voice, and every other voice stays (R810). -/
theorem voiceStep_actsOn (v : Fin NVOICE) (s : State) : ∃ g : Voice → F32 × Voice,
    ∀ V : Vector Voice NVOICE, voiceStep v { s with voice := V } =
      ((g V[v]).1, { s with voice := V.set v.val (g V[v]).2 v.isLt }) := by
  obtain ⟨g, hg⟩ := (voiceOscillators_actsOn v s).comp (voiceEnvelopes_actsOn v s)
  let r (W : Voice) := fltStep s.patch.flt (voiceMix s.patch W) (voiceFltControl s.sampleRate s.patch W)
  let k (W : Voice) := mmApply s.patch { W with flt := (r W).1 }
  refine ⟨fun W => (voiceGain (r (g W)).2 (k (g W)), k (g W)), fun V => ?_⟩
  have h : voiceEnvelopes v (voiceOscillators v { s with voice := V }) = _ := hg V
  simp only [voiceStep, h, voiceFilter, applyVoice, modFlt, modVoice, vmod]
  simp only [Fin.getElem_fin, Vector.getElem_set_self, Vector.set_set]
  rfl

/-- The voices of a sample write only voices (R805 step 4). -/
theorem render_frame (s : State) : ∃ V, (render s).2 = { s with voice := V } := by
  have all : ∀ (l : List (Fin NVOICE)) (x : F32) (t : State), ∃ V,
      (l.foldl renderVoice (x, t)).2 = { t with voice := V } := by
    intro l
    induction l with
    | nil => exact fun _ t => ⟨_, rfl⟩
    | cons v l ih =>
      intro x t
      have e : renderVoice (x, t) v = if voiceActive t.voice[v]
          then (fAdd x (voiceStep v t).1, (voiceStep v t).2) else (x, t) := rfl
      rw [List.foldl_cons, e]
      split
      · obtain ⟨V, h⟩ := voiceStep_frame v t
        obtain ⟨W, k⟩ := ih (fAdd x (voiceStep v t).1) (voiceStep v t).2
        exact ⟨W, by rw [k, h]⟩
      · exact ih x t
  exact all _ _ s

/-- The end of a sample: the counter, and at the last sample BUSY and DONE (R805 steps 5-7, R807). -/
theorem finishSample_eq (x : F32) (s : State) : finishSample x s =
    if s.schedI.toNat + 1 = s.blockLen.toNat
    then { storeOut s.schedI.toNat x s with
             schedI := s.schedI + 1#32, busy := false, irqStatus := s.irqStatus ||| 1#3 }
    else { storeOut s.schedI.toNat x s with schedI := s.schedI + 1#32 } := by
  unfold finishSample blockEnd irqSetDone storeOut
  split <;> split <;> rfl

end Sys2Proof.Machine
end

