-- ==== Sys2Proof/Laws/PerInstr.lean ====
section
/-! SUPPORT. One lemma per instruction about its words: a command is one word whose opcode R315 lists and
whose bits outside the fields of its format are 0 (R310, R312, R313), an event entry two words whose TYPE its
queue accepts (R300, R320, R321). -/

namespace Sys2Proof.Laws.EncodedWords

/-- How many words a port reads, and what it asks of the first. -/
def headAccepted : Port → List Word → Prop
  | .cmd, [c] => 1 ≤ (opOf c).toNat ∧ (opOf c).toNat ≤ 0x41 ∧ c.extractLsb' 1 11 = 0#11
  | .queue .midi, [w0, _] => 1 ≤ (typeOf w0).toNat ∧ (typeOf w0).toNat ≤ 4
  | .queue .automation, [w0, _] => typeOf w0 = 3#4
  | _, _ => False

/-- The words of `i` have the number and the head its port asks for. -/
def Statement (i : Instr) : Prop := headAccepted (portOf i) (encode i)

/-- The opcode of a command word is what it was built from. -/
theorem opOf_commandWord (op : BitVec 8) (v : BitVec 8) (u : BitVec 4) (m : BitVec 12) :
    opOf (commandWord op v u m) = op := by
  ext k hk
  simp only [opOf, commandWord, BitVec.getElem_extractLsb']
  rw [BitVec.getLsbD_append, BitVec.getLsbD_append, BitVec.getLsbD_append]
  simp [show ¬ 24 + k < 12 by omega, show ¬ 24 + k - 12 < 4 by omega,
    show ¬ 24 + k - 12 - 4 < 8 by omega, show 24 + k - 12 - 4 - 8 = k by omega, hk]

/-- Bits [11:1] of a command word come from IMM. -/
theorem imm_commandWord (op : BitVec 8) (v : BitVec 8) (u : BitVec 4) (m : BitVec 12) :
    (commandWord op v u m).extractLsb' 1 11 = m.extractLsb' 1 11 := by
  ext k hk
  simp only [commandWord, BitVec.getElem_extractLsb']
  rw [BitVec.getLsbD_append]
  simp [show 1 + k < 12 by omega]

/-- The TYPE of an event word is what it was built from. -/
theorem typeOf_eventWord (ty : BitVec 4) (tick : BitVec 12) (target : BitVec 16) :
    typeOf (eventWord ty tick target) = ty := by
  ext k hk
  simp only [typeOf, eventWord, BitVec.getElem_extractLsb']
  rw [BitVec.getLsbD_append, BitVec.getLsbD_append]
  simp [show ¬ 28 + k < 16 by omega, show ¬ 28 + k - 16 < 12 by omega,
    show 28 + k - 16 - 12 = k by omega, hk]

/-- A flag leaves IMM[11:1] zero. -/
theorem immFlag_reserved (b : Bool) : (immFlag b).extractLsb' 1 11 = 0#11 := by
  cases b <;> decide

/-- A command word whose opcode R315's range admits and whose IMM[11:1] is zero is accepted. -/
theorem command_accepted {op v : BitVec 8} {u : BitVec 4} {m : BitVec 12}
    (h : 1 ≤ op.toNat ∧ op.toNat ≤ 0x41) (hm : m.extractLsb' 1 11 = 0#11) :
    headAccepted .cmd [commandWord op v u m] := by
  show 1 ≤ (opOf (commandWord op v u m)).toNat ∧ _ ∧ _
  rw [opOf_commandWord, imm_commandWord]
  exact ⟨h.1, h.2, hm⟩

/-- A MIDI entry with one of the four types is accepted. -/
theorem midi_accepted {ty : BitVec 4} {k : BitVec 12} {t : BitVec 16} {x : Word}
    (h : 1 ≤ ty.toNat ∧ ty.toNat ≤ 4) : headAccepted (.queue .midi) [eventWord ty k t, x] := by
  show 1 ≤ (typeOf (eventWord ty k t)).toNat ∧ _
  rw [typeOf_eventWord]
  exact h

theorem nop : Statement .nop :=
  command_accepted (by decide) rfl

theorem run : Statement .run :=
  command_accepted (by decide) rfl

theorem panic : Statement .panic :=
  command_accepted (by decide) rfl

theorem allNotesOff : Statement .allNotesOff :=
  command_accepted (by decide) rfl

theorem errClear : Statement .errClear :=
  command_accepted (by decide) rfl

theorem noteOn (v : BitVec 8) (u : BitVec 4) : Statement (.noteOn v u) :=
  command_accepted (by decide) rfl

theorem noteOff (v : BitVec 8) (u : BitVec 4) (b : Bool) : Statement (.noteOff v u b) :=
  command_accepted (by decide) (immFlag_reserved b)

theorem envRetrigger (v : BitVec 8) (u : BitVec 4) : Statement (.envRetrigger v u) :=
  command_accepted (by decide) rfl

theorem envRelease (v : BitVec 8) (u : BitVec 4) : Statement (.envRelease v u) :=
  command_accepted (by decide) rfl

theorem envFastRelease (v : BitVec 8) (u : BitVec 4) : Statement (.envFastRelease v u) :=
  command_accepted (by decide) rfl

theorem envKill (v : BitVec 8) (u : BitVec 4) : Statement (.envKill v u) :=
  command_accepted (by decide) rfl

theorem envSetTimes (v : BitVec 8) (u : BitVec 4) (b : Bool) : Statement (.envSetTimes v u b) :=
  command_accepted (by decide) (immFlag_reserved b)

theorem envStep (v : BitVec 8) (u : BitVec 4) : Statement (.envStep v u) :=
  command_accepted (by decide) rfl

theorem envTriggerDelayed (v : BitVec 8) (u : BitVec 4) : Statement (.envTriggerDelayed v u) :=
  command_accepted (by decide) rfl

theorem envSetDelayHold (v : BitVec 8) (u : BitVec 4) : Statement (.envSetDelayHold v u) :=
  command_accepted (by decide) rfl

theorem oscSetUnisonPitch (v : BitVec 8) (u : BitVec 4) : Statement (.oscSetUnisonPitch v u) :=
  command_accepted (by decide) rfl

theorem oscStep (v : BitVec 8) (u : BitVec 4) : Statement (.oscStep v u) :=
  command_accepted (by decide) rfl

theorem oscReset (v : BitVec 8) (u : BitVec 4) : Statement (.oscReset v u) :=
  command_accepted (by decide) rfl

theorem oscFmMix (v : BitVec 8) (u : BitVec 4) : Statement (.oscFmMix v u) :=
  command_accepted (by decide) rfl

theorem fltSetCutoffBase (v : BitVec 8) (u : BitVec 4) : Statement (.fltSetCutoffBase v u) :=
  command_accepted (by decide) rfl

theorem fltAddCutoffMod (v : BitVec 8) (u : BitVec 4) : Statement (.fltAddCutoffMod v u) :=
  command_accepted (by decide) rfl

theorem fltSetCutoff (v : BitVec 8) (u : BitVec 4) : Statement (.fltSetCutoff v u) :=
  command_accepted (by decide) rfl

theorem fltSetResonance (v : BitVec 8) (u : BitVec 4) : Statement (.fltSetResonance v u) :=
  command_accepted (by decide) rfl

theorem fltStep (v : BitVec 8) (u : BitVec 4) : Statement (.fltStep v u) :=
  command_accepted (by decide) rfl

theorem fltReset (v : BitVec 8) (u : BitVec 4) : Statement (.fltReset v u) :=
  command_accepted (by decide) rfl

theorem mmCompact (v : BitVec 8) (u : BitVec 4) : Statement (.mmCompact v u) :=
  command_accepted (by decide) rfl

theorem mmApply (v : BitVec 8) (u : BitVec 4) : Statement (.mmApply v u) :=
  command_accepted (by decide) rfl

theorem evNoteOn (k : BitVec 12) (t : BitVec 16) (x : Word) : Statement (.evNoteOn k t x) :=
  midi_accepted (by decide)

theorem evNoteOff (k : BitVec 12) (t : BitVec 16) (x : Word) : Statement (.evNoteOff k t x) :=
  midi_accepted (by decide)

theorem evControllerM (k : BitVec 12) (t : BitVec 16) (x : Word) : Statement (.evControllerM k t x) :=
  midi_accepted (by decide)

theorem evPitchBend (k : BitVec 12) (t : BitVec 16) (x : Word) : Statement (.evPitchBend k t x) :=
  midi_accepted (by decide)

theorem evAutomation (k : BitVec 12) (t : BitVec 16) (x : Word) : Statement (.evAutomation k t x) := typeOf_eventWord ..

end Sys2Proof.Laws.EncodedWords
end

