-- ==== Sys2Proof/Laws/Units.lean ====
section
/-! SUPPORT. The updates of one unit of one voice, as the records the statements write. -/

namespace Sys2Proof.Machine

open Sys2Proof.Config Sys2Proof.Safety

theorem modVoice_eq_withVoice (v : Fin NVOICE) (f : Voice → Voice) (s : State) :
    modVoice v f s = withVoice s v (f s.voice[v]) := rfl

theorem modEnv_eq_withEnv (v : Fin NVOICE) (e : Fin NENV) (f : Env → Env) (s : State) :
    modEnv v e f s = withEnv s v e (f s.voice[v].env[e]) := rfl

theorem modOsc_eq_withOsc (v : Fin NVOICE) (o : Fin NOSC) (f : Osc → Osc) (s : State) :
    modOsc v o f s = withOsc s v o (f s.voice[v].osc[o]) := rfl

theorem modFlt_eq_withFlt (v : Fin NVOICE) (f : Flt → Flt) (s : State) :
    modFlt v f s = withFlt s v (f s.voice[v].flt) := rfl

/-- The voice an update of a voice names is the updated one. -/
theorem modVoice_voice_same (v : Fin NVOICE) (f : Voice → Voice) (s : State) :
    (modVoice v f s).voice[v] = f s.voice[v] := vmod_get_same s.voice v f

/-- Every other voice stays. -/
theorem modVoice_voice_other (v w : Fin NVOICE) (f : Voice → Voice) (s : State) (h : w ≠ v) :
    (modVoice v f s).voice[w] = s.voice[w] :=
  vmod_get_other s.voice v f w.val w.isLt fun e => h (Fin.ext e.symm)

end Sys2Proof.Machine
end

