-- ==== Sys2Proof/Tests/Slice0.lean ====
section
/-! SUPPORT. Tests on fixed values, their expected results taken from the spec's encodings (30_encoding.md) and
from 95_test_vectors.md, and for every statement with hypotheses a witness that meets them. -/

namespace Sys2Proof.Tests

-- The tests are checked one after another: each would otherwise hold a thread while it waits for the kernel.
set_option Elab.async false

open Sys2Proof.Machine Sys2Proof.Config Sys2Proof.Safety

/-! ### WellFormed refuses each ill-formed term -/

/-- VOICE 16 ≥ NVOICE and each command's first UNIT out of range (R315, ENC-6, ENC-7, ENC-8, ENC-13). -/
theorem test_wellFormed_commands :
    Instr.wellFormed (.noteOn 16#8 0#4) = false ∧ Instr.wellFormed (.noteOn 0#8 1#4) = false ∧
    Instr.wellFormed (.noteOn 15#8 0#4) = true ∧ Instr.wellFormed (.envRetrigger 0#8 6#4) = false ∧
    Instr.wellFormed (.envRetrigger 16#8 0#4) = false ∧ Instr.wellFormed (.envRetrigger 15#8 5#4) = true ∧
    Instr.wellFormed (.oscStep 0#8 2#4) = false ∧ Instr.wellFormed (.oscStep 255#8 0#4) = false ∧
    Instr.wellFormed (.oscStep 15#8 1#4) = true := by decide

/-- TARGET and VALUE of events (R322, SCH-8 to SCH-12). -/
theorem test_wellFormed_events :
    Instr.wellFormed (.evNoteOn 0#12 16#16 0#32) = false ∧
    Instr.wellFormed (.evNoteOn 0#12 0#16 0x8000#32) = false ∧
    Instr.wellFormed (.evNoteOn 0#12 0#16 0x80#32) = false ∧
    Instr.wellFormed (.evNoteOn 0#12 15#16 0x7F7F#32) = true ∧
    Instr.wellFormed (.evNoteOff 0#12 16#16 0#32) = false ∧
    Instr.wellFormed (.evNoteOff 0#12 0#16 2#32) = false ∧
    Instr.wellFormed (.evControllerM 0#12 128#16 0#32) = false ∧
    Instr.wellFormed (.evAutomation 0#12 0x30#16 0#32) = false ∧
    Instr.wellFormed (.evAutomation 0#12 0x26C#16 0#32) = false ∧
    Instr.wellFormed (.evAutomation 0#12 0xE5#16 0#32) = true := by decide +kernel

/-! ### Decoding: words written out from R310, R315 and R320 -/

theorem test_decode_global :
    decode .cmd [0x01000000#32] = .ok .nop ∧ decode .cmd [0x02000000#32] = .ok .run ∧
    decode .cmd [0x03000000#32] = .ok .panic ∧ decode .cmd [0x04000000#32] = .ok .allNotesOff ∧
    decode .cmd [0x05000000#32] = .ok .errClear := by decide

theorem test_decode_voice :
    decode .cmd [0x060A0000#32] = .ok (.noteOn 10#8 0#4) ∧
    decode .cmd [0x07000001#32] = .ok (.noteOff 0#8 0#4 true) ∧
    decode .cmd [0x070F0000#32] = .ok (.noteOff 15#8 0#4 false) := by decide

theorem test_decode_envelope :
    decode .cmd [0x10011000#32] = .ok (.envRetrigger 1#8 1#4) ∧
    decode .cmd [0x11022000#32] = .ok (.envRelease 2#8 2#4) ∧
    decode .cmd [0x12033000#32] = .ok (.envFastRelease 3#8 3#4) ∧
    decode .cmd [0x13044000#32] = .ok (.envKill 4#8 4#4) ∧
    decode .cmd [0x14005001#32] = .ok (.envSetTimes 0#8 5#4 true) ∧
    decode .cmd [0x15065000#32] = .ok (.envStep 6#8 5#4) ∧
    decode .cmd [0x16070000#32] = .ok (.envTriggerDelayed 7#8 0#4) ∧
    decode .cmd [0x17FFF000#32] = .ok (.envSetDelayHold 255#8 15#4) := by decide

theorem test_decode_oscillator :
    decode .cmd [0x20080000#32] = .ok (.oscSetUnisonPitch 8#8 0#4) ∧
    decode .cmd [0x210F1000#32] = .ok (.oscStep 15#8 1#4) ∧
    decode .cmd [0x22001000#32] = .ok (.oscReset 0#8 1#4) ∧
    decode .cmd [0x23011000#32] = .ok (.oscFmMix 1#8 1#4) := by decide

theorem test_decode_filter :
    decode .cmd [0x30010000#32] = .ok (.fltSetCutoffBase 1#8 0#4) ∧
    decode .cmd [0x31020000#32] = .ok (.fltAddCutoffMod 2#8 0#4) ∧
    decode .cmd [0x32030000#32] = .ok (.fltSetCutoff 3#8 0#4) ∧
    decode .cmd [0x33040000#32] = .ok (.fltSetResonance 4#8 0#4) ∧
    decode .cmd [0x34050000#32] = .ok (.fltStep 5#8 0#4) ∧
    decode .cmd [0x35000000#32] = .ok (.fltReset 0#8 0#4) := by decide

theorem test_decode_matrix :
    decode .cmd [0x40030000#32] = .ok (.mmCompact 3#8 0#4) ∧
    decode .cmd [0x41030000#32] = .ok (.mmApply 3#8 0#4) := by decide

/-- EVW-1, EVW-3, EVW-4, EVW-5 and EVW-6. -/
theorem test_decode_events :
    decode (.queue .midi) [0x10000000#32, 0x00007F45#32] = .ok (.evNoteOn 0#12 0#16 0x7F45#32) ∧
    decode (.queue .midi) [0x2FFF000F#32, 0x00000001#32] = .ok (.evNoteOff 4095#12 15#16 1#32) ∧
    decode (.queue .midi) [0x30010007#32, 0x3F000000#32] = .ok (.evControllerM 1#12 7#16 0x3F000000#32) ∧
    decode (.queue .midi) [0x40000000#32, 0x40000000#32] = .ok (.evPitchBend 0#12 0#16 0x40000000#32) ∧
    decode (.queue .automation) [0x300300A1#32, 0x42700000#32] =
      .ok (.evAutomation 3#12 0xA1#16 0x42700000#32) := by decide

/-- ENC-2 to ENC-5, ENC-9, ENC-12, SCH-5 and SCH-6. -/
theorem test_decode_refuses :
    decode .cmd [0x00000000#32] = .error .unknownOpcode ∧
    decode .cmd [0x01000001#32] = .error .reservedBit ∧ decode .cmd [0x02000100#32] = .error .reservedBit ∧
    decode .cmd [0x42000000#32] = .error .unknownOpcode ∧
    decode .cmd [0x10000001#32] = .error .reservedBit ∧ decode .cmd [0x07000002#32] = .error .reservedBit ∧
    decode (.queue .midi) [0x50000000#32, 0#32] = .error .badEventType ∧
    decode (.queue .automation) [0x10000040#32, 0#32] = .error .badEventType := by decide

/-! ### Numbers -/

/-- ENV-2 and ENV-3: increments of a zero time at SR 8192 and 8000; R1001's at 48000. -/
theorem test_env_increments :
    fMul 0x46000000#32 tMin = 0x3C0637BD#32 ∧ envInc 0x46000000#32 f0 = 0x42F42400#32 ∧
    envInc f8000 f0 = 0x42F9FFFF#32 ∧ envInc f192000 f0 = 0x40A6AAAB#32 ∧
    envInc f48000 f0 = 0x41A6AAAB#32 := by decide +kernel

/-- OSC-4: the offsets of four lanes. -/
theorem test_unison_offsets :
    laneOffset 4 f1 0 = 0xBF000000#32 ∧ laneOffset 4 f1 1 = 0xBE2AAAAB#32 ∧
    laneOffset 4 f1 2 = 0x3E2AAAAB#32 ∧ laneOffset 4 f1 3 = 0x3F000000#32 := by decide +kernel

/-- R19, R20, R26: zeros compare equal, a NaN result is canonical, DN flushes −0.0. -/
theorem test_ieee_corners :
    fEq f0 0x80000000#32 = true ∧ fAdd 0x7F800000#32 0xFF800000#32 = 0x7FC00000#32 ∧
    fLe 0x7FC00001#32 f0 = false ∧ dn 0x80000000#32 = f0 ∧ dn 0x7FC00000#32 = 0x7FC00000#32 ∧
    clamp 0x7FC00000#32 fNeg30 fNegTenth = fNeg30 ∧ finite 0xFF800000#32 = 0xFF7FFFFF#32 := by
  decide +kernel

/-! ### One step of each instruction -/

/-- The state of a next outcome; the reset state otherwise. -/
def after (o : Host.Outcome State Machine.Fault Refusal) : State :=
  match o with
  | .next s => s
  | .fault _ => State.reset
  | .refused _ => State.reset

/-- The reset state with E for E[0][0]. -/
def withE (E : Env) : State := withEnv State.reset 0 0 E

/-- The reset state with O for O[0][0]. -/
def withO (O : Osc) : State := withOsc State.reset 0 0 O

/-- E[0][0] after ENV_STEP of E. -/
def stepped (E : Env) : Env := (after (exec (.envStep 0#8 0#4) (withE E))).voice[0].env[0]

/-- The reset state with a write of `c` to CMD as its next turn. -/
def commanded (c : Word) : State := State.reset.withCommand c

/-- The command arrives through the bus: ENC-2 and ENC-6 raise faults 1 and 2. -/
theorem test_command_faults :
    (after (step (commanded 0x00000000#32))).errCause = .illegalCommand ∧
    (after (step (commanded 0x06100000#32))).errCause = .badVoice ∧
    (after (step (commanded 0x06100000#32))).errInfo = 0x06100000#32 ∧
    (after (step (commanded 0x21002000#32))).errCause = .badUnit := by decide +kernel

/-- ENC-15: CMD_BUSY comes before BAD_VOICE, ERR_LOC holds SAMPLE_IDX, and the block ends. -/
theorem test_command_busy :
    let t := after (step { commanded 0x06FF0000#32 with busy := true, schedI := 3#32, blockLen := 9#32 })
    t.errCause = .cmdBusy ∧ t.errLoc = 0x80030000#32 ∧ t.busy = false ∧ t.irqStatus = 2#3 := by
  decide +kernel

/-- ENC-19 and ENC-21. -/
theorem test_fault_state :
    let s := { commanded 0x06000000#32 with fault := true, errCause := .badUnit }
    (after (step s)).fault = true ∧ (after (step s)).voice[0].note = 0#32 ∧
    (after (exec .errClear s)).fault = false ∧ (after (exec .errClear s)).errCause = .none := by
  decide +kernel

theorem test_nop : (after (exec .nop { State.reset with busy := true })).busy = true := by decide +kernel

/-- ENC-16 and R841. -/
theorem test_panic :
    (after (exec .panic { State.reset with busy := true })).panicPend = true ∧
    (after (exec .panic (withE { Env.reset with stage := .hold, out := f1 }))).voice[0].env[0].stage = .off ∧
    (after (exec .panic (withE { Env.reset with stage := .hold, out := f1 }))).voice[0].env[0].out = f0 := by
  decide +kernel

theorem test_allNotesOff :
    (after (exec .allNotesOff (withE { Env.reset with stage := .sustain }))).voice[0].env[0].stage = .release ∧
    (after (exec .allNotesOff (withE { Env.reset with stage := .wait }))).voice[0].env[0].stage = .wait := by
  decide +kernel

/-- SCH-1 and SCH-2; a block of one sample starts. -/
theorem test_run :
    (after (exec .run State.reset)).errCause = .badBlockLen ∧
    (after (exec .run { State.reset with blockLen := 4097#32 })).errInfo = 0x1001#32 ∧
    (after (exec .run { State.reset with blockLen := 1#32, schedI := 7#32 })).busy = true ∧
    (after (exec .run { State.reset with blockLen := 1#32, schedI := 7#32 })).schedI = 0#32 := by
  decide +kernel

/-- A RAM with entry 0 of the MIDI queue. -/
def midiRam (w0 w1 : Word) : Memory := memPutWord (memPutWord [] 0x2000 w0) 0x2004 w1

/-- A RAM with entry 0 of the automation queue. -/
def atmRam (w0 w1 : Word) : Memory := memPutWord (memPutWord [] 0x3000 w0) 0x3004 w1

/-- SCH-10 and SCH-7. -/
theorem test_run_entry :
    let s := { State.reset with blockLen := 4#32, midiCount := 1#32, ram := midiRam 0x10000000#32 0x8000#32 }
    let r := { s with ram := midiRam 0x10040000#32 0#32 }
    (after (exec .run s)).errCause = .badEventValue ∧ (after (exec .run s)).errInfo = 0x10000000#32 ∧
    (after (exec .run r)).errCause = .eventTickRange := by decide +kernel

/-- P4's note-on: note 60, velocity 100; ARG0 = 200 plays note 127 (R830). -/
theorem test_noteOn :
    let t := after (exec (.noteOn 0#8 0#4) { State.reset with arg := #v[60#32, 100#32, 0#32, 0#32] })
    let u := after (exec (.noteOn 0#8 0#4) { State.reset with arg := #v[200#32, 1#32, 0#32, 0#32] })
    t.voice[0].note = 0x42700000#32 ∧ t.voice[0].vel = 100#7 ∧ t.voice[0].amp = 0x3F499326#32 ∧
    t.voice[0].env[5].stage = .attack ∧ t.voice[1].note = 0#32 ∧ u.voice[0].note = f127 := by
  decide +kernel

theorem test_noteOff :
    (after (exec (.noteOff 0#8 0#4 false)
      (withE { Env.reset with stage := .attack }))).voice[0].env[0].stage = .release ∧
    (after (exec (.noteOff 0#8 0#4 true)
      { withE { Env.reset with stage := .release } with sampleRate := 0x46000000#32 })).voice[0].env[0].rInc =
        0x3C480000#32 := by decide +kernel

/-- ENV-6, from Release. -/
theorem test_envRetrigger :
    let t := after (exec (.envRetrigger 0#8 0#4) (withE
      { Env.reset with stage := .release, out := 0x3E99999A#32, outDb := f0, dbFloor := fNeg48 }))
    t.voice[0].env[0].stage = .attack ∧ t.voice[0].env[0].out = f0 ∧ t.voice[0].env[0].outDb = fNeg48 ∧
    t.voice[0].env[0].mode = false := by decide +kernel

/-- ENV-7. -/
theorem test_envRelease :
    (after (exec (.envRelease 0#8 0#4) (withE { Env.reset with stage := .sustain }))).voice[0].env[0].stage =
      .release ∧
    (after (exec (.envRelease 0#8 0#4) (withE Env.reset))).voice[0].env[0].stage = .off := by decide +kernel

/-- ENV-8. -/
theorem test_envFastRelease :
    let t := after (exec (.envFastRelease 0#8 0#4)
      { withE { Env.reset with stage := .wait } with sampleRate := 0x46000000#32 })
    t.voice[0].env[0].rInc = 0x3C480000#32 ∧ t.voice[0].env[0].stage = .wait := by decide +kernel

/-- ENV-9. -/
theorem test_envKill :
    let t := after (exec (.envKill 0#8 0#4)
      (withE { Env.reset with stage := .decay, out := 0x3F19999A#32 }))
    t.voice[0].env[0].stage = .off ∧ t.voice[0].env[0].out = f0 := by decide +kernel

/-- ENV-1 and ENV-5: the stage stays, a NaN sustain is −96.0. -/
theorem test_envSetTimes :
    let t := after (exec (.envSetTimes 0#8 0#4 true) { State.reset with
      sampleRate := 0x46000000#32, arg := #v[0x3A000000#32, 0x3A000000#32, 0x7FC00000#32, 0x3A000000#32] })
    t.voice[0].env[0].aInc = 0x3E800000#32 ∧ t.voice[0].env[0].aIncDb = 0x41700000#32 ∧
    t.voice[0].env[0].sDb = fNeg96 ∧ t.voice[0].env[0].mode = true ∧ t.voice[0].env[0].stage = .off := by
  decide +kernel

/-- ENV-11's counts. -/
theorem test_envSetDelayHold :
    let t := after (exec (.envSetDelayHold 0#8 0#4) { State.reset with arg := #v[2#32, 1#32, 0#32, 0#32] })
    t.voice[0].env[0].delayN = 2#32 ∧ t.voice[0].env[0].holdN = 1#32 := by decide +kernel

theorem test_envTriggerDelayed :
    (after (exec (.envTriggerDelayed 0#8 0#4) (withE { Env.reset with cnt := 4#32 }))).voice[0].env[0].stage =
      .delay := by decide +kernel

/-- ENV-13, ENV-14, ENV-15 and ENV-16. -/
theorem test_envStep :
    (stepped { Env.reset with stage := .delay, cnt := 0xFFFFFFFF#32, delayN := 0xFFFFFFFF#32 }).stage =
      .attack ∧
    (stepped { Env.reset with stage := .attack, out := 0x3F666666#32, aInc := 0x3E800000#32 }).stage = .decay ∧
    (stepped { Env.reset with
      stage := .decay, out := 0x3F19999A#32, dInc := 0x3E800000#32, sLin := fHalf }).out = fHalf ∧
    (stepped { Env.reset with stage := .release, out := 0x3DCCCCCD#32, rInc := 0x3E800000#32 }).stage =
      .wait := by decide +kernel

/-- ENV-17, release step 39: the floor is reached and OUT is cut at THR (R453). -/
theorem test_envStep_db :
    let E := stepped { Env.reset with
      stage := .release, mode := true, out := fHalf, outDb := fNeg48, rIncDb := f24, thr := 0x3A83126F#32 }
    E.outDb = fNeg60 ∧ E.out = 0x3A83126F#32 ∧ E.stage = .release := by decide +kernel

/-- OSC-1: lane 0 alone takes a new increment; A4 at 48 kHz. -/
theorem test_oscSetUnisonPitch :
    let t := after (exec (.oscSetUnisonPitch 0#8 0#4)
      { withO { Osc.reset with inc := Vector.replicate NUNI_MAX f1 } with
        arg := #v[0#32, 0x428A0000#32, 0#32, 0#32] })
    t.voice[0].osc[0].inc[1] = f1 ∧ fDiv f440 f48000 = 0x3C162FC9#32 := by decide +kernel

/-- OSC-8 and OSC-8c. -/
theorem test_oscStep :
    let t := after (exec (.oscStep 0#8 0#4) (withO { Osc.reset with
      phase := Vector.replicate NUNI_MAX 0x3F400000#32, inc := Vector.replicate NUNI_MAX 0x3F333333#32 }))
    let u := after (exec (.oscStep 0#8 0#4) (withO { Osc.reset with
      phase := Vector.replicate NUNI_MAX incMax, inc := Vector.replicate NUNI_MAX incMax }))
    t.voice[0].osc[0].phase[0] = 0x3EE66668#32 ∧ t.voice[0].osc[0].wrap = true ∧ t.result = 0xBDCCCCC0#32 ∧
    u.voice[0].osc[0].phase[0] = 0x3F7FFFFE#32 ∧ u.result = 0x3F7FFFFC#32 := by decide +kernel

/-- P2, round 3: the slave is forced to the master's phase. -/
theorem test_oscStep_sync :
    let s := withOsc (withO { Osc.reset with wrap := true, syncPh := 0x3E000000#32 }) 0 1
      { Osc.reset with phase := Vector.replicate NUNI_MAX fHalf, inc := Vector.replicate NUNI_MAX 0x3E800000#32 }
    let t := after (exec (.oscStep 0#8 1#4) { s with patch := { s.patch with
      osc := #v[OscPatch.reset .saw, { OscPatch.reset .saw with sync := true }] } })
    t.voice[0].osc[1].phase[0] = 0x3E000000#32 ∧ t.voice[0].osc[1].wrap = false ∧
    t.result = 0xBF400000#32 := by decide +kernel

/-- OSC-17. -/
theorem test_oscReset :
    let t := after (exec (.oscReset 0#8 0#4) (withO { Osc.reset with
      phase := Vector.replicate NUNI_MAX fHalf, inc := Vector.replicate NUNI_MAX f1, wrap := true }))
    t.voice[0].osc[0].phase[6] = f0 ∧ t.voice[0].osc[0].wrap = false ∧ t.voice[0].osc[0].inc[0] = f1 := by
  decide +kernel

/-- OSC-16. -/
theorem test_oscFmMix :
    let s := withOsc (withO { Osc.reset with out := fHalf }) 0 1 { Osc.reset with out := 0xBF000000#32 }
    let t := after (exec (.oscFmMix 0#8 0#4) { s with patch := { s.patch with
      osc := #v[{ OscPatch.reset .saw with fm1 := fHalf }, OscPatch.reset .off] } })
    t.voice[0].osc[0].fmIn = 0xBE800000#32 := by decide +kernel

/-- R610's example and its NaN corner. -/
theorem test_fltSetCutoffBase :
    (after (exec (.fltSetCutoffBase 0#8 0#4)
      { State.reset with arg := #v[f60, 0#32, 0#32, 0#32] })).voice[0].flt.base = f60 ∧
    (after (exec (.fltSetCutoffBase 0#8 0#4)
      { State.reset with arg := #v[0xFFC00000#32, 0#32, 0#32, 0#32] })).voice[0].flt.base = f0 := by
  decide +kernel

/-- R611's example. -/
theorem test_fltAddCutoffMod :
    (after (exec (.fltAddCutoffMod 0#8 0#4) { withFlt State.reset 0 { Flt.reset with mod := 0x3FC00000#32 } with
      arg := #v[f2, 0#32, 0#32, 0#32] })).voice[0].flt.mod = 0x40600000#32 := by decide +kernel

/-- FLT-13: the stale cache after a change of SR. -/
theorem test_fltSetCutoff :
    let s := withFlt State.reset 0 { Flt.reset with
      base := f60, mod := f60, last := f120, valid := true, coef := coefMax }
    (after (exec (.fltSetCutoff 0#8 0#4) { s with sampleRate := f8000 })).result = coefMax ∧
    (after (exec (.fltSetCutoff 0#8 0#4) State.reset)).voice[0].flt.valid = true := by decide +kernel

/-- FLT-15: 0.0 dB is cut at −0.1. -/
theorem test_fltSetResonance :
    (after (exec (.fltSetResonance 0#8 0#4) State.reset)).voice[0].flt.res =
      fMul f2 (fSub f1 (dbToLin fNegTenth)) := rfl

/-- FLT-1 and FLT-6, first steps. -/
theorem test_fltStep :
    let F : Flt := { Flt.reset with coef := fHalf, res := f1 }
    let s := { withFlt State.reset 0 F with arg := #v[f1, 0#32, 0#32, 0#32] }
    let lp := fun poles => { s with patch := { s.patch with flt := { FltPatch.reset with
      type := .lp, poles := poles } } }
    (after (exec (.fltStep 0#8 0#4) (lp .two))).result = 0x3E800000#32 ∧
    (after (exec (.fltStep 0#8 0#4) (lp .four))).result = 0x3D800000#32 ∧
    (after (exec (.fltStep 0#8 0#4) (lp .two))).voice[0].flt.sec[0].bpM1 = fHalf := by decide +kernel

/-- FLT-18. -/
theorem test_fltReset :
    let t := after (exec (.fltReset 0#8 0#4) (withFlt State.reset 0
      { Flt.reset with valid := true, res := f1, sec := Vector.replicate NSEC { Section.reset with lp := f1 } }))
    t.voice[0].flt.sec[2].lp = f0 ∧ t.voice[0].flt.valid = false ∧ t.voice[0].flt.res = f1 := by
  decide +kernel

/-- MM-1's setup: DEPTH and MM_SLOT_ACTIVE of 95_test_vectors.md, section 7. -/
def mmSetup : State :=
  let d := ((((Vector.replicate NROUTE f0).set 9 0x3E800000#32).set 12 0xBF800000#32).set 29 f1).set 80 f2
  { State.reset with
    patch := { Patch.reset with slotActive := 5#4, mmBase := (Vector.replicate NDEST f0).set 1 fHalf }
    depth := d.set 59 0x80000000#32 }

/-- MM-1. -/
theorem test_mmCompact :
    let t := after (exec (.mmCompact 3#8 0#4) mmSetup)
    t.result = 3#32 ∧ routeIdxWord t.voice[3].list[0] = 0x00000100#32 ∧
    routeIdxWord t.voice[3].list[1] = 0x00030100#32 ∧ routeIdxWord t.voice[3].list[2] = 0x00080202#32 ∧
    t.voice[3].list[2].depth = f2 ∧ t.voice[3].live[1] = fHalf := by decide +kernel

/-- MM-2's first destination, with NOTE 0. -/
theorem test_mmApply :
    let s := after (exec (.mmCompact 3#8 0#4) mmSetup)
    let t := after (exec (.mmApply 3#8 0#4) (withEnv s 3 0 { Env.reset with out := fHalf }))
    t.result = 3#32 ∧ t.voice[3].live[1] = 0x3F200000#32 := by decide +kernel

/-- EVW-1 and EVW-3's FAST bit. -/
theorem test_evNotes :
    (after (exec (.evNoteOn 0#12 2#16 0x7F45#32) State.reset)).voice[2].note = 0x428A0000#32 ∧
    (after (exec (.evNoteOn 0#12 2#16 0x7F45#32) State.reset)).voice[2].amp = f1 ∧
    (after (exec (.evNoteOff 0#12 0#16 1#32)
      { withE Env.reset with sampleRate := 0x46000000#32 })).voice[0].env[0].rInc = 0x3C480000#32 := by
  decide +kernel

/-- SCH-16, SCH-15 and SCH-13. -/
theorem test_evRegisters :
    (after (exec (.evControllerM 1#12 7#16 0x7FC00000#32)
      { State.reset with cc := Vector.replicate NCC f1 })).cc[7] = f0 ∧
    (after (exec (.evPitchBend 0#12 9#16 0x42C80000#32) State.reset)).pitchBend = f48 ∧
    (after (exec (.evAutomation 0#12 0xE5#16 f1) State.reset)).patch.fastRTime = f1 := by decide +kernel

/-- A step takes the opcode table's word: a command as a CMD write, an event as the due entry of its queue. -/
theorem test_withFetchWord :
    (after (step (State.reset.withFetchWord 32 0x03000000))).agenda = [] ∧
    (after (step (State.reset.withFetchWord 32 0x06000000))).voice[0].env[0].stage = .attack ∧
    (after (step (State.reset.withFetchWord 64 0x4270000030010007))).cc[7] = f60 ∧
    (after (step (State.reset.withFetchWord 64 0x42700000300300A1))).patch.flt.cutoff = f60 ∧
    (after (step (State.reset.withFetchWord 32 0x10000003))).voice[3].env[0].stage = .decay ∧
    decodeTableWord 32 0x30000000 = some (.fltSetCutoffBase 0#8 0#4) ∧ decodeTableWord 32 0 = none := by
  decide +kernel

/-- BUS-4, BUS-16 and BUS-25. -/
theorem test_bus :
    (busRead 0x002#32 State.reset).errCause = .busAlign ∧ (busRead 0x064#32 State.reset).wtLock = true ∧
    (busRead 0x064#32 (busRead 0x064#32 State.reset)).busData = 1#32 ∧
    (busRead 0x00020000#32 State.reset).errCause = .busUnmapped ∧
    (busRead 0x080#32 State.reset).busData = 0x0000FFFF#32 ∧
    (busRead 0x008#32 State.reset).busData = 0x00347010#32 := by decide +kernel

/-- BUS-10, BUS-11 and BUS-13: reserved codes are stored as legal ones. -/
theorem test_bus_filters :
    let w := fun (a x : Word) => (busRead a (after (busWrite a x State.reset))).busData
    w 0x200#32 0x7#32 = 0x15#32 ∧ w 0x200#32 0x1F0#32 = 0x70#32 ∧ w 0x280#32 0x30F#32 = 0x215#32 ∧
    w 0x398#32 0#32 = 1#32 ∧ w 0x044#32 0x7FC00000#32 = f8000 := by decide +kernel

/-! ### Witnesses: states and operands that meet the hypotheses of each statement -/

/-- A one-sample block at its only sample, with two due entries in each queue, a swap requested and a panic
waiting. -/
def running : State :=
  { State.reset with
    busy := true, blockLen := 1#32, panicPend := true, swapReq := true
    midiCount := 2#32, atmCount := 1#32
    ram := memPutWord (memPutWord (memPutWord (memPutWord (memPutWord (memPutWord []
      0x2000 0x3000007F#32) 0x2004 f1) 0x2008 0x40000000#32) 0x200C f2) 0x3000 0x300000A1#32) 0x3004 f60 }

/-- The last sample of the longest block, with both queues used up. -/
def atLastSample : State := { State.reset with busy := true, blockLen := 4096#32, schedI := 4095#32 }

/-- A sample that falls among accesses still to come: the automation entry is due, the one MIDI entry is not. -/
def amongAccesses : State :=
  { running with
    blockLen := 2#32, midiCount := 1#32, agenda := [.sample, .read 0x014#32]
    ram := memPutWord (memPutWord (memPutWord (memPutWord []
      0x2000 0x30010007#32) 0x2004 f1) 0x3000 0x300000A1#32) 0x3004 f60 }

/-- The scheduler's turn stands first, and none is left. -/
theorem witness_schedulerNext : SchedulerNext amongAccesses ∧ SchedulerNext running := ⟨.inr rfl, .inl rfl⟩

/-- A fault is recorded. -/
def faulted : State := { State.reset with fault := true, errCause := .busAlign, irqStatus := 2#3 }

/-- Voice 15 holds a list of one entry whose slot, control and source are the last ones. -/
def listed : State :=
  withVoice State.reset 15 { Voice.reset with
    mmCount := 1#32
    list := Vector.replicate NROUTE { slot := 3#8, control := 2#8, source := 8#8, depth := f1 } }

theorem witness_DecodedWordsAreTheEncodedWords :
    decode .cmd [0x1400F001#32] = .ok (.envSetTimes 0#8 15#4 true) ∧
    decode (.queue .automation) [0x3FFFFFFF#32, 0xFFFFFFFF#32] =
      .ok (.evAutomation 0xFFF#12 0xFFFF#16 0xFFFFFFFF#32) := by decide

theorem witness_StepRunsTheDecodedCommand :
    (commanded 0x41FF0000#32).agenda = .write 0x018#32 0x41FF0000#32 :: [] ∧
    decode .cmd [0x41FF0000#32] = .ok (.mmApply 255#8 0#4) := ⟨rfl, by decide⟩

/-- The MIDI clause at CC 127 with one entry left, and the automation clause with none left and a later MIDI entry. -/
theorem witness_SampleRunsTheDecodedEvent :
    (running.busy = true ∧ running.midiCount.toNat = running.mcur.toNat + 1 + 1 ∧
      entryTick running .midi 0 = running.schedI.toNat ∧
      decode (.queue .midi) [entryWord0 running .midi 0, entryWord1 running .midi 0] =
        .ok (.evControllerM 0#12 127#16 f1)) ∧
    (let s := amongAccesses
     SchedulerNext s ∧ s.busy = true ∧ NoneDue s .midi ∧ s.mcur.toNat < s.midiCount.toNat ∧
      s.atmCount.toNat = s.acur.toNat + 0 + 1 ∧ entryTick s .automation 0 = s.schedI.toNat ∧
      decode (.queue .automation) [entryWord0 s .automation 0, entryWord1 s .automation 0] =
        .ok (.evAutomation 0#12 0xA1#16 f60)) :=
  ⟨by decide +kernel, witness_schedulerNext.1, rfl, by unfold NoneDue; decide +kernel, by decide +kernel⟩

/-- Every cause the checks report, at the first bad value of each field, and the last good one. -/
theorem witness_CommandChecksRunInOrder :
    (commanded 0x42000000#32).fault = false ∧
    commandFault false 0x42000000 = some .illegalCommand ∧
    commandFault true 0x03000001 = some .illegalCommand ∧ commandFault true 0x06FF0000 = some .cmdBusy ∧
    commandFault false 0x0610F000 = some .badVoice ∧ commandFault false 0x100F6000 = some .badUnit ∧
    commandFault false 0x100F5000 = none ∧ commandFault true 0x03000000 = none := by decide +kernel

theorem witness_FaultStateDiscardsCommands :
    let s := { faulted with agenda := [.write 0x018#32 0x05000000#32] }
    s.agenda = .write 0x018#32 0x05000000#32 :: [] ∧ s.fault = true := ⟨rfl, rfl⟩

/-- Both record clauses, and the clause of a panic waiting in a block. -/
theorem witness_FaultEntryRecordsTheFirstFault :
    running.fault = false ∧ running.busy = true ∧ running.panicPend = true ∧ faulted.fault = true ∧
    faulted.busy = false := ⟨rfl, rfl, rfl, rfl, rfl⟩

theorem witness_MisalignedAccessRaisesBusAlign :
    (1#32).toNat % 4 ≠ 0 ∧ (0xFFFFFFFF#32).toNat % 4 ≠ 0 := by decide

/-- The gap below WT_CTRL, the first word past the depth table, the first voice block past the pool, the last
address. -/
theorem witness_UnmappedAccessRaisesBusUnmapped :
    mapped (0x05C#32).toNat = false ∧ mapped (0x9B0#32).toNat = false ∧
    mapped (0x00020000#32).toNat = false ∧ mapped (0xFFFFFFFC#32).toNat = false ∧
    (0xFFFFFFFC#32).toNat % 4 = 0 := by decide +kernel

/-- The lengths and the last words of both banks while bank 0 is active, and SAMPLE_RATE. -/
theorem witness_BusyWritesReachOnlyListedTargets :
    running.busy = true ∧ mapped 0x044 = true ∧ busyWritable running 0x044 = false ∧
    mapped 0x068 = true ∧ busyWritable running 0x068 = false ∧ mapped 0x06C = true ∧
    busyWritable running 0x06C = true ∧ mapped 0x8FFC = true ∧ busyWritable running 0x8FFC = false ∧
    mapped 0xCFFC = true ∧ busyWritable running 0xCFFC = true := by decide +kernel

/-- A W1C write, and an idle step of a machine with a bit pending. -/
theorem witness_InterruptBitsAreClearedOnlyByTheHost :
    (∃ t, step { faulted with agenda := [.write 0x03C#32 2#32] } = .next t) ∧
    (∃ t, step faulted = .next t) ∧ faulted.agenda = [] ∧ faulted.irqStatus = 2#3 :=
  ⟨⟨_, rfl⟩, ⟨_, rfl⟩, rfl, rfl⟩

/-- A sample that swaps, one among accesses, one that finds the lock held, an idle step, and an access. -/
theorem witness_SwapHappensAtASampleWithTheLockFree :
    (∃ t, step { atLastSample with swapReq := true } = .next t) ∧
    (SchedulerNext amongAccesses ∧ amongAccesses.swapReq = true ∧ ∃ t, step amongAccesses = .next t) ∧
    (∃ t, step { atLastSample with swapReq := true, wtLock := true } = .next t) ∧
    (∃ t, step { State.reset with swapReq := true } = .next t) ∧ atLastSample.busy = true ∧
    atLastSample.wtLock = false ∧ (Turn.read 0x064#32 ≠ .sample ∧ Turn.read 0x064#32 ≠ .reset) ∧
    ∃ t, step { running with agenda := [.read 0x064#32] } = .next t :=
  ⟨⟨_, rfl⟩, ⟨.inr rfl, rfl, _, rfl⟩, ⟨_, rfl⟩, ⟨_, rfl⟩, rfl, rfl, by decide, _, rfl⟩

/-- The first and the last word of RAM. -/
theorem witness_RamReadsReturnTheLastWrite :
    ramMapped (0x2000#32).toNat = true ∧ ramMapped (0xCFFC#32).toNat = true ∧ (0x2000#32 ≠ 0xCFFC#32) ∧
    State.reset.busy = false ∧ (∃ t, busWrite 0x2000#32 f1 State.reset = .next t) :=
  ⟨by decide, by decide, by decide, rfl, ⟨_, rfl⟩⟩

theorem witness_ResetInputRestoresTheResetState :
    { running with agenda := [.reset, .sample] }.agenda = .reset :: [.sample] := rfl

/-- A block of the least length with one entry in each queue; the greatest lengths are legal too. -/
theorem witness_RunStartsAValidBlock :
    let s := { running with busy := false, midiCount := 1#32 }
    Accepting s ∧ LengthsValid s ∧ entryFault s .midi 0 = none ∧ entryFault s .automation 0 = none ∧
    LengthsValid { s with blockLen := 4096#32, midiCount := 512#32, atmCount := 512#32 } := by
  unfold Accepting LengthsValid
  decide +kernel

/-- Each clause at its first bad value. -/
theorem witness_RunRefusesBadLengths :
    Accepting State.reset ∧ State.reset.blockLen.toNat = 0 ∧ MAX_BLOCK < (4097#32).toNat ∧
    EVQ_CAP < (513#32).toNat ∧ (512#32).toNat ≤ EVQ_CAP := by
  unfold Accepting
  decide +kernel

/-- A bad first MIDI entry, and a bad automation entry after good MIDI ones. -/
theorem witness_RunRefusesTheFirstBadEntry :
    let s := { running with busy := false, midiCount := 1#32, ram := midiRam 0x30000080#32 0#32 }
    let r := { running with busy := false, midiCount := 0#32, ram := atmRam 0x1000006B#32 0#32 }
    Accepting s ∧ LengthsValid s ∧ entryFault s .midi 0 = some .badEventTarget ∧ Accepting r ∧
    LengthsValid r ∧ entryFault r .automation 0 = some .badEventType := by
  unfold Accepting LengthsValid
  decide +kernel

theorem witness_PanicKillsEveryEnvelope :
    State.reset.fault = false ∧ State.reset.busy = false ∧ running.fault = false ∧ running.busy = true :=
  ⟨rfl, rfl, rfl, rfl⟩

theorem witness_AllNotesOffReleasesEveryEnvelope : Accepting State.reset := ⟨rfl, rfl⟩

theorem witness_ErrClearLeavesTheFaultState : faulted.fault = true ∧ State.reset.busy = false := ⟨rfl, rfl⟩

/-- Voice 15 by command and by event; the state accepts commands. -/
theorem witness_NoteOnStartsTheVoice :
    (15#8).toNat = (15 : Fin NVOICE).val ∧ (15#16).toNat = (15 : Fin NVOICE).val ∧ Accepting State.reset :=
  ⟨rfl, rfl, rfl, rfl⟩

theorem witness_NoteOffReleasesTheVoice :
    (15#8).toNat = (15 : Fin NVOICE).val ∧ (15#16).toNat = (15 : Fin NVOICE).val ∧
    (1#32).getLsbD 0 = true ∧ Accepting State.reset := ⟨rfl, rfl, rfl, rfl, rfl⟩

theorem witness_EnvTriggersAndKillSetOneEnvelope :
    (15#8).toNat < NVOICE ∧ (5#4).toNat < NENV ∧ Accepting State.reset :=
  ⟨by decide, by decide, rfl, rfl⟩

theorem witness_EnvReleasesMoveToRelease :
    (15#8).toNat < NVOICE ∧ (5#4).toNat < NENV ∧ Accepting State.reset :=
  ⟨by decide, by decide, rfl, rfl⟩

theorem witness_EnvSetTimesDerivesTheIncrements :
    (0#8).toNat < NVOICE ∧ (5#4).toNat < NENV ∧ Accepting State.reset :=
  ⟨by decide, by decide, rfl, rfl⟩

theorem witness_EnvSetDelayHoldWritesTheCounts :
    (15#8).toNat < NVOICE ∧ (0#4).toNat < NENV ∧ Accepting State.reset :=
  ⟨by decide, by decide, rfl, rfl⟩

/-- Linear mode in Attack, and dB mode in Wait. -/
theorem witness_EnvStepTakesTheLinearAction :
    let s := withE { Env.reset with stage := .attack }
    let r := withE { Env.reset with stage := .wait, mode := true }
    Accepting s ∧ s.voice[0].env[0].mode = false ∧ Accepting r ∧ r.voice[0].env[0].stage = .wait :=
  ⟨⟨rfl, rfl⟩, rfl, ⟨rfl, rfl⟩, rfl⟩

theorem witness_EnvStepTakesTheDbAction :
    let s := withE { Env.reset with stage := .decay, mode := true, outDb := f0 }
    Accepting s ∧ s.voice[0].env[0].mode = true ∧ s.voice[0].env[0].stage = .decay :=
  ⟨⟨rfl, rfl⟩, rfl, rfl⟩

/-- Both ends of the ranges. -/
theorem witness_LinearEnvelopeStaysInUnitRange :
    let E := { Env.reset with out := f1, aInc := f0, dInc := fMaxFinite }
    E.mode = false ∧ InRange f0 f1 E.out ∧ InRange f0 f1 E.sLin ∧ InRange f0 fMaxFinite E.aInc ∧
    InRange f0 fMaxFinite E.dInc ∧ InRange f0 fMaxFinite E.rInc := by
  unfold InRange
  decide +kernel

/-- The greatest output below 1.0 rising, and 1.0 falling, by the least increment above the bound. -/
theorem witness_LinearAttackRisesAndReleaseFalls :
    let E := { Env.reset with stage := .attack, out := incMax, aInc := 0x33800001#32 }
    let R := { Env.reset with stage := .release, out := f1, rInc := 0x33800001#32 }
    E.mode = false ∧ fLe f0 E.out = true ∧ fLt E.out f1 = true ∧ fLt 0x33800000#32 E.aInc = true ∧
    R.mode = false ∧ fLt f0 R.out = true ∧ fLe R.out f1 = true ∧ fLt 0x33800000#32 R.rInc = true := by
  decide +kernel

theorem witness_OscSetUnisonPitchWritesActiveLanes :
    (15#8).toNat < NVOICE ∧ (1#4).toNat < NOSC ∧ Accepting State.reset :=
  ⟨by decide, by decide, rfl, rfl⟩

/-- The outer lanes of seven, and their centre lane. -/
theorem witness_UnisonOffsetsAreSymmetric :
    2 ≤ 7 ∧ 7 ≤ NUNI_MAX ∧ 2 * 0 + 1 ≠ 7 ∧ 2 * 3 + 1 = 7 ∧ InRange f0 f12 f12 := by
  unfold InRange
  decide +kernel

theorem witness_OscStepAdvancesTheActiveLanes :
    (0#8).toNat < NVOICE ∧ (1#4).toNat < NOSC ∧ Accepting State.reset ∧
    State.reset.patch.osc[1].uni.toNat = 1 ∧ 1 ≤ NUNI_MAX :=
  ⟨by decide, by decide, ⟨rfl, rfl⟩, rfl, by decide⟩

theorem witness_OscResetAndFmMixWriteOneOscillator :
    (15#8).toNat < NVOICE ∧ (1#4).toNat < NOSC ∧ Accepting State.reset :=
  ⟨by decide, by decide, rfl, rfl⟩

theorem witness_FltControlsWriteTheirFields : (15#8).toNat < NVOICE ∧ Accepting State.reset :=
  ⟨by decide, rfl, rfl⟩

/-- An empty cache, and a held note equal to the sum, of the other zero. -/
theorem witness_FltSetCutoffRecomputesOnChange :
    let s := withFlt State.reset 0 { Flt.reset with valid := true, last := 0x80000000#32 }
    let F := s.voice[0].flt
    Accepting State.reset ∧ State.reset.voice[0].flt.valid = false ∧ Accepting s ∧ F.valid = true ∧
    fEq (clamp (fAdd F.base F.mod) f0 f127) F.last = true := by
  unfold Accepting
  decide +kernel

/-- TYPE OFF, and TYPE LP. -/
theorem witness_FltStepRunsTheCascade :
    let s := { State.reset with patch := { Patch.reset with flt := { FltPatch.reset with type := .lp } } }
    Accepting State.reset ∧ State.reset.patch.flt.type = .off ∧ Accepting s ∧ s.patch.flt.type ≠ .off :=
  ⟨⟨rfl, rfl⟩, rfl, ⟨rfl, rfl⟩, by decide⟩

theorem witness_MmCompactKeepsTheNonzeroRoutes : (3#8).toNat < NVOICE ∧ Accepting mmSetup :=
  ⟨by decide, rfl, rfl⟩

/-- A list that names the last slot, control and source. -/
theorem witness_lists_valid : ListsValid listed := by
  unfold ListsValid routeInRange
  decide +kernel

theorem witness_MmApplyRebuildsTheLiveValues : (15#8).toNat < NVOICE ∧ Accepting listed ∧ ListsValid listed :=
  ⟨by decide, ⟨rfl, rfl⟩, witness_lists_valid⟩

/-- Destination (2, 0) of MM-3, whose one written depth is −0.0. -/
theorem witness_ZeroDepthLeavesTheBaseValue :
    Accepting mmSetup ∧ (∀ k : Fin NSRC, fEq mmSetup.depth[routeIndex 2 0 k] f0 = true) ∧
    (∃ t, exec (.mmCompact 3#8 0#4) mmSetup = .next t ∧ ∃ u, exec (.mmApply 3#8 0#4) t = .next u) :=
  ⟨⟨rfl, rfl⟩, by decide +kernel, ⟨_, rfl, _, rfl⟩⟩

theorem witness_ControllerAndPitchBendWriteTheirRegister : (127#16).toNat < NCC := by decide

/-- The first patch register and the last depth. -/
theorem witness_AutomationWritesLikeAnIdleHost :
    badTarget .automation 3 (0x40#16).toNat = false ∧
    badTarget .automation 3 (0x26B#16).toNat = false := by decide

/-- The last sample of the longest block, one that does not end its block, and one among accesses with a panic
waiting. -/
theorem witness_SampleWritesItsOutputWordOnly :
    SchedulerNext atLastSample ∧ atLastSample.busy = true ∧ atLastSample.schedI.toNat < MAX_BLOCK ∧
    atLastSample.schedI.toNat + 1 = atLastSample.blockLen.toNat ∧ (∃ t, step atLastSample = .next t) ∧
    (∃ t, step { atLastSample with schedI := 0#32 } = .next t) ∧
    SchedulerNext amongAccesses ∧ amongAccesses.panicPend = true ∧ ∃ t, step amongAccesses = .next t :=
  ⟨.inl rfl, rfl, by decide, by decide, ⟨_, rfl⟩, ⟨_, rfl⟩, .inr rfl, rfl, _, rfl⟩

/-- No entry is left and every voice is Off; and the same with an active voice. -/
theorem witness_InactiveVoicesContributeNothing :
    let s := { withEnv atLastSample 15 0 { Env.reset with stage := .sustain } with agenda := [.sample, .sample] }
    SchedulerNext atLastSample ∧ atLastSample.busy = true ∧ atLastSample.panicPend = false ∧
    atLastSample.schedI.toNat < MAX_BLOCK ∧ NoneDue atLastSample .midi ∧ NoneDue atLastSample .automation ∧
    (∃ t, step atLastSample = .next t) ∧ atLastSample.voice[0].env[0].stage = .off ∧
    SchedulerNext s ∧ s.voice[15].env[0].stage = .sustain ∧ ∃ t, step s = .next t :=
  ⟨.inl rfl, rfl, rfl, by decide, by unfold NoneDue; decide, by unfold NoneDue; decide, ⟨_, rfl⟩, rfl, .inr rfl,
    by decide +kernel, _, rfl⟩

theorem witness_VoiceChainIsTheCommandSequence : (15#8).toNat < NVOICE ∧ Accepting mmSetup :=
  ⟨by decide, rfl, rfl⟩

/-- A running block hangs together; so does a fault state. -/
theorem witness_control_consistent : ControlConsistent running ∧ ControlConsistent faulted := by
  unfold ControlConsistent LengthsValid
  decide +kernel

/-- No turn is left; and the one sample left falls before an access. -/
theorem witness_UndisturbedBlockRunsToItsEnd :
    let s := { running with agenda := [.sample, .read 0x014#32] }
    ControlConsistent running ∧ running.busy = true ∧ running.agenda = [] ∧ ControlConsistent s ∧
    ∀ turn ∈ s.agenda.take (s.blockLen.toNat - s.schedI.toNat), turn = .sample :=
  ⟨witness_control_consistent.1, rfl, rfl, witness_control_consistent.1, by decide +kernel⟩

/-- What `p` says of an answer's next state; false of an answer without one. -/
def nextSays (p : State → Bool) : Host.Outcome State Fault Refusal → Bool
  | .next t => p t
  | _ => false

theorem exists_of_nextSays {p : State → Bool} {o : Host.Outcome State Fault Refusal}
    (h : nextSays p o = true) : ∃ t, o = .next t ∧ p t = true := by
  cases o with
  | next t => exact ⟨t, rfl, h⟩
  | fault _ => cases h
  | refused _ => cases h

/-- A sample inside a block. -/
theorem witness_QueuesCannotChangeDuringABlock :
    let s := { atLastSample with schedI := 0#32 }
    s.busy = true ∧ ∃ t, step s = .next t ∧ t.busy = true :=
  ⟨rfl, exists_of_nextSays (p := State.busy) (by decide +kernel)⟩

theorem witness_WtLockIsATestAndSet :
    SchedulerNext amongAccesses ∧ (∃ t, step amongAccesses = .next t) ∧ ∃ t, exec .nop amongAccesses = .next t :=
  ⟨.inr rfl, ⟨_, rfl⟩, _, rfl⟩

theorem witness_InstructionsLeaveHostRegistersAlone :
    ∃ t, exec (.noteOn 0#8 0#4) running = .next t := ⟨_, rfl⟩

theorem witness_ControlStateStaysConsistent :
    ControlConsistent running ∧ ∃ t, step running = .next t := ⟨witness_control_consistent.1, _, rfl⟩

/-- RAM with its first word and its last one written. -/
theorem witness_RamStaysCanonicalAndConfined :
    let s := { State.reset with ram := memPutWord (memPutWord [] 0x2000 f1) 0xCFFC f2 }
    RamConfined s ∧ ∃ t, step s = .next t :=
  ⟨by unfold RamConfined; decide +kernel, _, rfl⟩

theorem witness_FilteredRegistersStayLegal :
    RegistersLegal mmSetup ∧ ∃ t, step mmSetup = .next t :=
  ⟨by unfold RegistersLegal InRange; decide +kernel, _, rfl⟩

/-- Every phase of one oscillator at the greatest value below 1.0. -/
theorem witness_PhasesStayInUnitRange :
    let s := withO { Osc.reset with phase := Vector.replicate NUNI_MAX incMax, syncPh := incMax }
    PhasesInUnit s ∧ ∃ t, step s = .next t :=
  ⟨by unfold PhasesInUnit InRange; decide +kernel, _, rfl⟩

theorem witness_ModulationListsStayValid :
    ListsValid listed ∧ ∃ t, step listed = .next t := ⟨witness_lists_valid, _, rfl⟩

/-- The last word of the last voice block, an idle state, and one busy with the length of the inactive bank. -/
theorem witness_BusReachesEveryRegister :
    ((listRegisters 15 107)[1]'(by decide)).addr = 0x1F95C ∧ State.reset.busy = false ∧ running.busy = true ∧
    running.activeBank = false ∧ busyWritable running 0x06C = true := by decide +kernel

end Sys2Proof.Tests
end

section
/-! SUPPORT. What a step can do to what the invariants of 10_state.md speak of: the filtered registers, the RAMs and
the modulation lists. Said once, as `step_storeChanges`: a step is a chain of changes, each of them a write through a
write filter, a compaction, the reset input, or one that leaves all of these alone. -/

namespace Sys2Proof.Proofs

-- One proof after another, as in the tests: proofs checked at once would hold too many threads.
set_option Elab.async false

open Sys2Proof.Machine Sys2Proof.Config Sys2Proof.Safety

/-! ### Changes that leave the store alone -/

/-- `t` agrees with `s` in the filtered registers outside the voices, in RAM and in every modulation list. -/
structure SameStore (s t : State) : Prop where
  sampleRate : t.sampleRate = s.sampleRate
  pitchBend : t.pitchBend = s.pitchBend
  wtBlen0 : t.wtBlen0 = s.wtBlen0
  wtBlen1 : t.wtBlen1 = s.wtBlen1
  patch : t.patch = s.patch
  cc : t.cc = s.cc
  depth : t.depth = s.depth
  ram : t.ram = s.ram
  lists : ∀ v : Fin NVOICE, t.voice[v].mmCount = s.voice[v].mmCount ∧ t.voice[v].list = s.voice[v].list

theorem SameStore.refl (s : State) : SameStore s s :=
  ⟨rfl, rfl, rfl, rfl, rfl, rfl, rfl, rfl, fun _ => ⟨rfl, rfl⟩⟩

theorem SameStore.trans {s t u : State} (h : SameStore s t) (k : SameStore t u) : SameStore s u where
  sampleRate := k.sampleRate.trans h.sampleRate
  pitchBend := k.pitchBend.trans h.pitchBend
  wtBlen0 := k.wtBlen0.trans h.wtBlen0
  wtBlen1 := k.wtBlen1.trans h.wtBlen1
  patch := k.patch.trans h.patch
  cc := k.cc.trans h.cc
  depth := k.depth.trans h.depth
  ram := k.ram.trans h.ram
  lists v := ⟨(k.lists v).1.trans (h.lists v).1, (k.lists v).2.trans (h.lists v).2⟩

/-- An operation on a voice that leaves its modulation list alone. -/
def KeepsList (f : Voice → Voice) : Prop := ∀ V, (f V).mmCount = V.mmCount ∧ (f V).list = V.list

theorem modVoice_sameStore (v : Fin NVOICE) {f : Voice → Voice} (s : State) (hf : KeepsList f) :
    SameStore s (modVoice v f s) where
  __ := SameStore.refl s
  lists w := by
    by_cases hw : w = v
    · rw [hw, modVoice_voice_same]; exact hf _
    · rw [modVoice_voice_other v w f s hw]; exact ⟨rfl, rfl⟩

theorem modEnv_sameStore (v : Fin NVOICE) (e : Fin NENV) (f : Env → Env) (s : State) :
    SameStore s (modEnv v e f s) := modVoice_sameStore v s fun _ => ⟨rfl, rfl⟩

theorem modOsc_sameStore (v : Fin NVOICE) (o : Fin NOSC) (f : Osc → Osc) (s : State) :
    SameStore s (modOsc v o f s) := modVoice_sameStore v s fun _ => ⟨rfl, rfl⟩

theorem modFlt_sameStore (v : Fin NVOICE) (f : Flt → Flt) (s : State) :
    SameStore s (modFlt v f s) := modVoice_sameStore v s fun _ => ⟨rfl, rfl⟩

theorem applyVoice_sameStore (v : Fin NVOICE) (s : State) : SameStore s (applyVoice v s) :=
  modVoice_sameStore v s fun _ => ⟨rfl, rfl⟩

theorem noteOffOp_sameStore (v : Fin NVOICE) (fast : Bool) (s : State) : SameStore s (noteOffOp v fast s) :=
  modVoice_sameStore v s fun _ => ⟨rfl, rfl⟩

theorem modAllEnvs_sameStore (f : Env → Env) (s : State) : SameStore s (modAllEnvs f s) where
  __ := SameStore.refl s
  lists v := by
    have hv : (modAllEnvs f s).voice[v] = { s.voice[v] with env := vmap f s.voice[v].env } :=
      vmap_get _ s.voice v.val v.isLt
    rw [hv]; exact ⟨rfl, rfl⟩

theorem setResult_sameStore (w : Word) (s : State) : SameStore s (setResult w s) := { SameStore.refl s with }

theorem advance_sameStore (q : Queue) (s : State) : SameStore s (advance q s) := by
  cases q <;> exact { SameStore.refl s with }

theorem swapCheck_sameStore (s : State) : SameStore s (swapCheck s) := by
  obtain ⟨b, r, q, h⟩ := swapCheck_frame s
  rw [h]; exact { SameStore.refl s with }

theorem recordFault_sameStore (c : Cause) (info loc : Word) (s : State) :
    SameStore s (recordFault c info loc s) := by
  unfold recordFault
  split
  · exact .refl s
  · exact { SameStore.refl s with }

theorem abortBlock_sameStore (s : State) : SameStore s (abortBlock s) := by
  unfold abortBlock
  split
  · split
    · exact { modAllEnvs_sameStore envKill s with }
    · exact { SameStore.refl s with }
  · exact .refl s

theorem raise_sameStore (c : Cause) (info loc : Word) (s : State) : SameStore s (raise c info loc s) :=
  (recordFault_sameStore c info loc s).trans (abortBlock_sameStore _)

theorem raiseAccess_sameStore (c : Cause) (info : Word) (s : State) : SameStore s (raiseAccess c info s) :=
  raise_sameStore c info _ s

theorem applyPanic_sameStore (s : State) : SameStore s (applyPanic s) := by
  unfold applyPanic
  split
  · exact { modAllEnvs_sameStore envKill s with }
  · exact .refl s

theorem busRead_sameStore (a : Word) (s : State) : SameStore s (busRead a s) := by
  have hfault (c : Cause) : SameStore s (faultRead c a s) := { raiseAccess_sameStore c a s with }
  unfold busRead
  split
  · exact hfault _
  · split
    · exact hfault _
    · unfold readEffect
      split <;> exact { SameStore.refl s with }

theorem runCommand_sameStore (s : State) : SameStore s (runCommand s) := by
  unfold runCommand
  split
  · exact raise_sameStore _ _ _ s
  · exact { SameStore.refl s with }

/-! ### The voices of a sample -/

theorem foldl_sameStore {α : Type} {f : State → α → State} (hf : ∀ s a, SameStore s (f s a)) (l : List α)
    (s : State) : SameStore s (l.foldl f s) := by
  induction l generalizing s with
  | nil => exact .refl s
  | cons a l ih => exact (hf s a).trans (ih _)

theorem voiceOscillators_sameStore (v : Fin NVOICE) (s : State) : SameStore s (voiceOscillators v s) := by
  unfold voiceOscillators setPitch stepOsc mixFm
  exact (modOsc_sameStore ..).trans <| (modOsc_sameStore ..).trans <| (modOsc_sameStore ..).trans <|
    (modOsc_sameStore ..).trans <| (modOsc_sameStore ..).trans <| modOsc_sameStore ..

/-- Stepping a voice leaves every modulation list alone: MM_APPLY only reads it (R720, R810). -/
theorem voiceStep_sameStore (v : Fin NVOICE) (s : State) : SameStore s (voiceStep v s).2 := by
  have henv (t : State) : SameStore t (voiceEnvelopes v t) :=
    foldl_sameStore (fun t e => modEnv_sameStore v e _ t) _ t
  have hflt (t : State) : SameStore t (voiceFilter v t).2 :=
    modFlt_sameStore v (fun _ => (fltStep t.patch.flt (voiceMix t.patch t.voice[v])
      (voiceFltControl t.sampleRate t.patch t.voice[v])).1) t
  unfold voiceStep
  exact (((voiceOscillators_sameStore v s).trans (henv _)).trans (hflt _)).trans (applyVoice_sameStore v _)

theorem renderVoice_sameStore (st : F32 × State) (v : Fin NVOICE) :
    SameStore st.2 (renderVoice st v).2 := by
  unfold renderVoice
  split
  · exact voiceStep_sameStore v st.2
  · exact .refl _

theorem render_sameStore (s : State) : SameStore s (render s).2 := by
  have all (l : List (Fin NVOICE)) (st : F32 × State) : SameStore st.2 (l.foldl renderVoice st).2 := by
    induction l generalizing st with
    | nil => exact .refl _
    | cons v l ih => exact (renderVoice_sameStore st v).trans (ih _)
  exact all _ (f0, s)

/-! ### Changes of the store -/

/-- One change of the store. -/
inductive StoreChange : State → State → Prop
  /-- None of it changes. -/
  | frame {s t : State} (h : SameStore s t) : StoreChange s t
  /-- A word is written to a location through its write filter (R202, R823-R825), or a sample to OUT (R805). -/
  | write (s : State) (x : Word) (l : Loc) : StoreChange s (writeLoc s x l)
  /-- A voice's modulation list is compacted (R710). -/
  | compact (v : Fin NVOICE) (s : State) : StoreChange s (compactVoice v s)
  /-- The reset input is asserted (R1000). -/
  | reset (s : State) : StoreChange s (resetInput s)

/-- A chain of changes of the store. -/
abbrev StoreChanges : State → State → Prop := Relation.ReflTransGen StoreChange

theorem SameStore.changes {s t : State} (h : SameStore s t) : StoreChanges s t := .single (.frame h)

/-- What every change of the store keeps, a chain of them keeps. -/
theorem StoreChanges.keep {P : State → Prop} (hP : ∀ s t, StoreChange s t → P s → P t) {s t : State}
    (h : StoreChanges s t) (hs : P s) : P t := by
  induction h with
  | refl => exact hs
  | tail _ hc ih => exact hP _ _ hc ih

/-! ### Instructions -/

theorem acceptVU_storeChanges {units : Nat} (c : Word) (voice : BitVec 8) (unit : BitVec 4)
    {f : Fin NVOICE → Fin units → State → State} (s : State) (hf : ∀ v u, StoreChanges s (f v u s)) :
    StoreChanges s (acceptVU c voice unit units f s) := by
  rcases acceptVU_cases c voice unit units f s with
    ⟨-, h⟩ | ⟨-, -, h⟩ | ⟨-, -, -, h⟩ | ⟨-, -, -, -, h⟩ | ⟨-, -, hv, hu, h⟩
  · rw [h]
  · rw [h]; exact (raiseAccess_sameStore _ _ s).changes
  · rw [h]; exact (raiseAccess_sameStore _ _ s).changes
  · rw [h]; exact (raiseAccess_sameStore _ _ s).changes
  · rw [h]; exact hf _ _

theorem acceptG_storeChanges (c : Word) {f : State → State} (s : State) (hf : SameStore s (f s)) :
    StoreChanges s (acceptG c f s) := by
  rcases acceptG_cases c f s with ⟨-, h⟩ | ⟨-, -, h⟩ | ⟨-, -, h⟩
  · rw [h]
  · rw [h]; exact (raiseAccess_sameStore _ _ s).changes
  · rw [h]; exact hf.changes

/-- A command on one unit that leaves the store alone. -/
theorem execUnit_storeChanges {units : Nat} (c : Word) (voice : BitVec 8) (unit : BitVec 4)
    {f : Fin NVOICE → Fin units → State → State} (s : State) (hf : ∀ v u, SameStore s (f v u s)) :
    StoreChanges s (acceptVU c voice unit units f s) :=
  acceptVU_storeChanges c voice unit s fun v u => (hf v u).changes

/-- What NOTE_ON_OP writes in a voice before the compaction (R830). -/
theorem noteOnVoice_frame (sr : F32) (p : Patch) (note vel : Nat) (V : Voice) : ∃ n l a o f e,
    noteOnVoice sr p note vel V = { V with note := n, vel := l, amp := a, osc := o, flt := f, env := e } :=
  ⟨_, _, _, _, _, _, rfl⟩

theorem noteOnVoice_keepsList (sr : F32) (p : Patch) (note vel : Nat) :
    KeepsList (noteOnVoice sr p note vel) := by
  intro V
  obtain ⟨n, l, a, o, f, e, h⟩ := noteOnVoice_frame sr p note vel V
  rw [h]
  exact ⟨rfl, rfl⟩

/-- The voice is set up and then compacted (R830). -/
theorem noteOnOp_storeChanges (v : Fin NVOICE) (note vel : Nat) (s : State) :
    StoreChanges s (noteOnOp v note vel s) :=
  (modVoice_sameStore v s (noteOnVoice_keepsList s.sampleRate s.patch note vel)).changes.tail (.compact v _)

theorem onVoice_storeChanges (target : BitVec 16) {f : Fin NVOICE → State → State} (s : State)
    (hf : ∀ v, StoreChanges s (f v s)) : StoreChanges s (onVoice target f s) := by
  unfold onVoice
  split
  · exact hf _
  · exact .refl

/-- All that an instruction can do to the store. -/
theorem exec_storeChanges (i : Instr) (s : State) : ∃ t, exec i s = .next t ∧ StoreChanges s t := by
  cases i with
  | nop => exact ⟨_, rfl, .refl⟩
  | run => exact ⟨_, rfl, acceptG_storeChanges _ s (runCommand_sameStore s)⟩
  | panic =>
    refine ⟨_, rfl, ?_⟩
    split
    · exact .refl
    · split
      · exact SameStore.changes { SameStore.refl s with }
      · exact (modAllEnvs_sameStore envKill s).changes
  | allNotesOff => exact ⟨_, rfl, acceptG_storeChanges _ s (modAllEnvs_sameStore _ s)⟩
  | errClear =>
    have hclear : SameStore s (clearFault s) := { SameStore.refl s with }
    refine ⟨_, rfl, ?_⟩
    split
    · exact hclear.changes
    · split
      · exact (raiseAccess_sameStore _ _ s).changes
      · exact hclear.changes
  | noteOn voice unit => exact ⟨_, rfl, acceptVU_storeChanges _ _ _ s fun v _ => noteOnOp_storeChanges v _ _ s⟩
  | noteOff voice unit fast => exact ⟨_, rfl, execUnit_storeChanges _ _ _ s fun v _ => noteOffOp_sameStore v fast s⟩
  | envRetrigger | envRelease | envFastRelease | envKill | envSetTimes | envTriggerDelayed | envSetDelayHold =>
    exact ⟨_, rfl, execUnit_storeChanges _ _ _ s fun v e => modEnv_sameStore v e _ s⟩
  | envStep =>
    exact ⟨_, rfl, execUnit_storeChanges _ _ _ s fun v e =>
      (modEnv_sameStore v e _ s).trans (setResult_sameStore _ _)⟩
  | oscSetUnisonPitch | oscReset | oscFmMix =>
    exact ⟨_, rfl, execUnit_storeChanges _ _ _ s fun v o => modOsc_sameStore v o _ s⟩
  | oscStep =>
    exact ⟨_, rfl, execUnit_storeChanges _ _ _ s fun v o =>
      (modOsc_sameStore v o _ s).trans (setResult_sameStore _ _)⟩
  | fltSetCutoffBase | fltAddCutoffMod | fltSetResonance | fltReset =>
    exact ⟨_, rfl, execUnit_storeChanges _ _ _ s fun v _ => modFlt_sameStore v _ s⟩
  | fltSetCutoff | fltStep =>
    exact ⟨_, rfl, execUnit_storeChanges _ _ _ s fun v _ =>
      (modFlt_sameStore v _ s).trans (setResult_sameStore _ _)⟩
  | mmCompact =>
    exact ⟨_, rfl, acceptVU_storeChanges _ _ _ s fun v _ =>
      .tail (.single (.compact v s)) (.frame (setResult_sameStore _ _))⟩
  | mmApply =>
    exact ⟨_, rfl, execUnit_storeChanges _ _ _ s fun v _ =>
      (applyVoice_sameStore v s).trans (setResult_sameStore _ _)⟩
  | evNoteOn => exact ⟨_, rfl, onVoice_storeChanges _ s fun v => noteOnOp_storeChanges v _ _ s⟩
  | evNoteOff => exact ⟨_, rfl, onVoice_storeChanges _ s fun v => (noteOffOp_sameStore v _ s).changes⟩
  | evControllerM tick target value =>
    refine ⟨_, rfl, ?_⟩
    split
    next h => exact .single (.write s value (.cc ⟨target.toNat, h⟩))
    next => exact .refl
  | evPitchBend tick target value => exact ⟨_, rfl, .single (.write s value .pitchBend)⟩
  | evAutomation tick target value =>
    refine ⟨_, rfl, ?_⟩
    split
    · exact .single (.write s value _)
    · exact .refl

/-! ### One sample -/

theorem dispatch_storeChanges (q : Queue) (j : Nat) (s : State) :
    ∃ t, dispatch q j s = .next t ∧ StoreChanges s t := by
  unfold dispatch
  split
  · exact exec_storeChanges _ s
  · exact ⟨s, rfl, .refl⟩

theorem drain_storeChanges (q : Queue) (n : Nat) (s : State) :
    ∃ t, drain q n s = .next t ∧ StoreChanges s t := by
  induction n generalizing s with
  | zero => exact ⟨s, rfl, .refl⟩
  | succ n ih =>
    unfold drain
    split
    · obtain ⟨t, ht, hst⟩ := dispatch_storeChanges q (cursor q s).toNat s
      obtain ⟨u, hu, htu⟩ := ih (advance q t)
      exact ⟨u, by rw [ht]; exact hu, (hst.trans (advance_sameStore q t).changes).trans htu⟩
    · exact ⟨s, rfl, .refl⟩

theorem storeOut_storeChanges (i : Nat) (acc : F32) (s : State) : StoreChanges s (storeOut i acc s) := by
  unfold storeOut
  split
  next h => exact .single (.write s acc (.out ⟨i, h⟩))
  next => exact .refl

theorem soundSample_storeChanges (s : State) : StoreChanges s (soundSample s) := by
  have finish (x : F32) (t : State) : SameStore (storeOut t.schedI.toNat x t) (finishSample x t) := by
    unfold finishSample
    split <;> exact { SameStore.refl (storeOut t.schedI.toNat x t) with }
  unfold soundSample
  exact (((applyPanic_sameStore s).trans (render_sameStore _)).changes.trans
    (storeOut_storeChanges _ _ _)).trans (finish _ _).changes

theorem sampleStep_storeChanges (s : State) : ∃ t, sampleStep s = .next t ∧ StoreChanges s t := by
  obtain ⟨m, hm, hsm⟩ : ∃ m, drainQueue .midi (swapCheck s) = .next m ∧ StoreChanges (swapCheck s) m :=
    drain_storeChanges .midi _ _
  obtain ⟨a, ha, hma⟩ : ∃ a, drainQueue .automation m = .next a ∧ StoreChanges m a :=
    drain_storeChanges .automation _ _
  refine ⟨soundSample a, ?_, (((swapCheck_sameStore s).changes.trans hsm).trans hma).trans
    (soundSample_storeChanges a)⟩
  unfold sampleStep
  rw [hm]
  show bindNext (drainQueue .automation m) _ = _
  rw [ha]; rfl

/-! ### One step -/

theorem scheduler_storeChanges (s : State) : ∃ t, scheduler s = .next t ∧ StoreChanges s t := by
  unfold scheduler
  split
  · exact sampleStep_storeChanges s
  · exact ⟨s, rfl, .refl⟩

theorem commandWrite_storeChanges (c : Word) (s : State) :
    ∃ t, commandWrite c s = .next t ∧ StoreChanges s t := by
  unfold commandWrite
  split
  · exact exec_storeChanges _ s
  · refine ⟨_, rfl, ?_⟩
    split
    · exact .refl
    · exact (raiseAccess_sameStore _ _ s).changes

theorem storeLoc_storeChanges (l : Loc) (x : Word) (s : State) :
    ∃ t, storeLoc l x s = .next t ∧ StoreChanges s t := by
  unfold storeLoc
  split
  · exact commandWrite_storeChanges x s
  · exact ⟨_, rfl, .single (.write s x l)⟩

theorem busWrite_storeChanges (a x : Word) (s : State) : ∃ t, busWrite a x s = .next t ∧ StoreChanges s t := by
  unfold busWrite
  split
  · exact ⟨_, rfl, (raiseAccess_sameStore _ _ s).changes⟩
  · split
    · exact ⟨_, rfl, (raiseAccess_sameStore _ _ s).changes⟩
    · split
      · exact ⟨_, rfl, (raiseAccess_sameStore _ _ s).changes⟩
      · exact storeLoc_storeChanges _ x s

theorem takeTurn_storeChanges (turn : Turn) (s : State) :
    ∃ t, takeTurn turn s = .next t ∧ StoreChanges s t := by
  cases turn with
  | read a => exact ⟨_, rfl, (busRead_sameStore a s).changes⟩
  | write a x => exact busWrite_storeChanges a x s
  | sample => exact scheduler_storeChanges s
  | reset => exact ⟨_, rfl, .single (.reset s)⟩

/-- All that a step can do to the store. -/
theorem step_storeChanges {s t : State} (h : step s = .next t) : StoreChanges s t := by
  have any : ∃ u, step s = .next u ∧ StoreChanges s u := by
    unfold step
    split
    · exact scheduler_storeChanges s
    · rename_i turn rest _
      have htaken : SameStore s { s with agenda := rest } := { SameStore.refl s with }
      obtain ⟨u, hu, hsu⟩ := takeTurn_storeChanges turn { s with agenda := rest }
      exact ⟨u, hu, htaken.changes.trans hsu⟩
  obtain ⟨u, hu, hsu⟩ := any
  rw [h] at hu
  cases hu
  exact hsu

/-- What every change of the store keeps, every step keeps. -/
theorem step_keeps {P : State → Prop} (hP : ∀ s t, StoreChange s t → P s → P t) (s t : State) (hs : P s)
    (h : step s = .next t) : P t := (step_storeChanges h).keep hP hs

end Sys2Proof.Proofs
end

section
/-! SUPPORT. The modulation lists (R145, R146): a compaction leaves a list that fits and is in range, and no other
change touches one. Settles O59. -/

namespace Sys2Proof.Proofs

-- One proof after another, as in the tests: proofs checked at once would hold too many threads.
set_option Elab.async false

open Sys2Proof.Machine Sys2Proof.Config Sys2Proof.Safety

/-- The list of one voice fits and names only slots, controls and sources that exist (R146, R721). -/
def ListValid (V : Voice) : Prop :=
  V.mmCount.toNat ≤ NROUTE ∧ ∀ i : Fin NROUTE, i.val < V.mmCount.toNat → routeInRange V.list[i]

theorem listsValid_iff (s : State) : ListsValid s ↔ ∀ v : Fin NVOICE, ListValid s.voice[v] := Iff.rfl

theorem reset_listValid : ListValid Voice.reset := ⟨Nat.zero_le _, fun _ h => absurd h (Nat.not_lt_zero _)⟩

/-! ### Compaction -/

/-- A retained route names its slot, control and source (R710). -/
theorem routeOf_inRange {depth : Vector F32 NROUTE} {s : Fin NSLOT} {c : Fin NCTRL} {k : Fin NSRC} {r : Route}
    (h : routeOf depth s c k = some r) : routeInRange r := by
  unfold routeOf at h
  split at h
  · cases h
  · cases h
    have := s.isLt
    have := c.isLt
    have := k.isLt
    simp only [routeInRange, BitVec.toNat_ofNat]
    omega

theorem routes_inRange {depth : Vector F32 NROUTE} {active : BitVec NSLOT} {r : Route}
    (h : r ∈ routes depth active) : routeInRange r := by
  obtain ⟨s, -, hs⟩ := List.mem_flatMap.1 h
  split at hs
  · obtain ⟨c, -, hc⟩ := List.mem_flatMap.1 hs
    obtain ⟨k, -, hk⟩ := List.mem_filterMap.1 hc
    exact routeOf_inRange hk
  · cases hs

theorem length_flatMap_le {α β : Type} (l : List α) (f : α → List β) (n : Nat) (h : ∀ a, (f a).length ≤ n) :
    (l.flatMap f).length ≤ l.length * n := by
  induction l with
  | nil => simp
  | cons a l ih =>
    have := h a
    rw [List.flatMap_cons, List.length_append, List.length_cons, Nat.succ_mul]
    omega

/-- There are no more retained routes than routes (R146). -/
theorem routes_length_le (depth : Vector F32 NROUTE) (active : BitVec NSLOT) :
    (routes depth active).length ≤ NROUTE := by
  have hctrl (s : Fin NSLOT) (c : Fin NCTRL) :
      ((List.finRange NSRC).filterMap (routeOf depth s c)).length ≤ NSRC :=
    (List.length_filterMap_le _ _).trans_eq List.length_finRange
  have hslot (s : Fin NSLOT) : (if active.getLsbD s.val then
      (List.finRange NCTRL).flatMap fun c => (List.finRange NSRC).filterMap fun k => routeOf depth s c k
      else []).length ≤ NCTRL * NSRC := by
    split
    · exact (length_flatMap_le _ _ _ (hctrl s)).trans_eq (by rw [List.length_finRange])
    · exact Nat.zero_le _
  exact (length_flatMap_le _ _ _ hslot).trans_eq (by rw [List.length_finRange]; rfl)

theorem overlay_get {α : Type} {n : Nat} (xs : Vector α n) (ys : List α) (i : Nat) (hi : i < n)
    (h : i < ys.length) : (overlay xs ys)[i] = ys[i] := by
  simp [overlay, h]

theorem mmCompact_listValid (active : BitVec NSLOT) (depth : Vector F32 NROUTE) (base : Vector F32 NDEST)
    (V : Voice) : ListValid (mmCompact active depth base V) := by
  have hle := routes_length_le depth active
  have hcount : (mmCompact active depth base V).mmCount.toNat = (routes depth active).length := by
    simp only [mmCompact, BitVec.toNat_ofNat]
    exact Nat.mod_eq_of_lt (hle.trans_lt (by decide))
  refine ⟨by omega, fun i hi => ?_⟩
  rw [hcount] at hi
  have hget : (mmCompact active depth base V).list[i] = (routes depth active)[i.val] :=
    overlay_get V.list _ i.val i.isLt hi
  rw [hget]
  exact routes_inRange (List.getElem_mem hi)

/-! ### Every change -/

theorem SameStore.listsValid {s t : State} (h : SameStore s t) (hs : ListsValid s) : ListsValid t := by
  intro v
  obtain ⟨hcount, hlist⟩ := h.lists v
  rw [hcount, hlist]
  exact hs v

/-- A write of a voice register leaves the modulation list alone: MM_COUNT and LIST are read-only (R141, R145). -/
theorem writeVoice_keepsList (x : Word) (r : VoiceReg) : KeepsList fun V => writeVoice x V r := by
  intro V
  cases r <;> exact ⟨rfl, rfl⟩

theorem writeLoc_listsValid (s : State) (x : Word) (l : Loc) (hs : ListsValid s) :
    ListsValid (writeLoc s x l) := by
  cases l
  case voice v r => exact (modVoice_sameStore v s (writeVoice_keepsList x r)).listsValid hs
  case wtBlen bank => cases bank <;> exact hs
  all_goals exact hs

theorem compactVoice_listsValid (v : Fin NVOICE) (s : State) (hs : ListsValid s) :
    ListsValid (compactVoice v s) := by
  rw [listsValid_iff]
  intro w
  unfold compactVoice
  by_cases hw : w = v
  · rw [hw, modVoice_voice_same]; exact mmCompact_listValid _ _ _ _
  · rw [modVoice_voice_other v w _ s hw]; exact hs w

theorem storeChange_listsValid (s t : State) (h : StoreChange s t) (hs : ListsValid s) : ListsValid t := by
  cases h with
  | frame h => exact h.listsValid hs
  | write _ x l => exact writeLoc_listsValid s x l hs
  | compact v => exact compactVoice_listsValid v s hs
  | reset =>
    intro v
    have hv : (resetInput s).voice[v] = Voice.reset := Vector.getElem_replicate v.isLt
    rw [hv]
    exact reset_listValid

/-- Settles O59: only a compaction changes a list, and it leaves one that fits and is in range. -/
theorem modulationListsStayValid : Obligations.ModulationListsStayValid := by
  unfold Obligations.ModulationListsStayValid
  exact step_keeps storeChange_listsValid

end Sys2Proof.Proofs
end

section
/-! SUPPORT. RAM stays canonical and inside the four RAMs (R135): a word is only ever written at the address of a queue
word, an output word or a wavetable word. Settles O56. -/

namespace Sys2Proof.Proofs

-- One proof after another, as in the tests: proofs checked at once would hold too many threads.
set_option Elab.async false

open Sys2Proof.Machine Sys2Proof.Config Sys2Proof.Safety

/-! ### The addresses of RAM words -/

/-- The four bytes of the word at `a` are bytes of one of the RAMs. -/
def RamWordAt (a : Nat) : Prop := ∀ i < 4, ramMapped (a + i) = true

/-- The four RAMs as byte ranges (R135). -/
theorem ramMapped_iff (a : Nat) : ramMapped a = true ↔
    (0x2000 ≤ a ∧ a < 0x3000) ∨ (0x3000 ≤ a ∧ a < 0x4000) ∨ (0x4000 ≤ a ∧ a < 0x8000) ∨
    (0x8000 ≤ a ∧ a < 0x9000) ∨ (0xC000 ≤ a ∧ a < 0xD000) := by
  simp [ramMapped, or_assoc, EVQ_CAP, MAX_BLOCK, WT_LEN]

theorem queueWord_inRam (q : Queue) (j : Fin EVQ_CAP) (hi : Bool) :
    RamWordAt (queueAddr q j.val + (if hi then 4 else 0)) := by
  intro i h
  have hj : j.val < 512 := j.isLt
  have hoff : (if hi then 4 else 0) ≤ 4 := by split <;> omega
  rw [ramMapped_iff]
  cases q <;> simp only [queueAddr] <;> omega

theorem outWord_inRam (i : Fin MAX_BLOCK) : RamWordAt (outAddr i.val) := by
  intro k h
  have hi : i.val < 4096 := i.isLt
  rw [ramMapped_iff, outAddr]
  omega

theorem wtWord_inRam (bank : Bool) (i : Fin WT_LEN) : RamWordAt (wtAddr bank i.val) := by
  intro k h
  have hi : i.val < 1024 := i.isLt
  rw [ramMapped_iff, wtAddr]
  split <;> omega

/-! ### Every change -/

/-- A word write lists its own four bytes and those listed before. -/
theorem mem_memPutWord {m : Memory} {a : Nat} {w : Word} {c : Host.Cell} (h : c ∈ memPutWord m a w) :
    (∃ i < 4, c.1 = a + i) ∨ c ∈ m := by
  unfold memPutWord at h
  rcases mem_memPut _ _ _ _ h with rfl | h
  · exact .inl ⟨3, by decide, rfl⟩
  rcases mem_memPut _ _ _ _ h with rfl | h
  · exact .inl ⟨2, by decide, rfl⟩
  rcases mem_memPut _ _ _ _ h with rfl | h
  · exact .inl ⟨1, by decide, rfl⟩
  rcases mem_memPut _ _ _ _ h with rfl | h
  · exact .inl ⟨0, by decide, rfl⟩
  exact .inr h

theorem setRamWord_ramConfined {a : Nat} (x : Word) (s : State) (ha : RamWordAt a) (hs : RamConfined s) :
    RamConfined (setRamWord a x s) := by
  obtain ⟨hwf, hin⟩ := hs
  refine ⟨memPutWord_wf _ _ _ hwf, fun c hc => ?_⟩
  rcases mem_memPutWord hc with ⟨i, hi, hci⟩ | hc
  · rw [hci]; exact ha i hi
  · exact hin c hc

theorem writeLoc_ramConfined (s : State) (x : Word) (l : Loc) (hs : RamConfined s) :
    RamConfined (writeLoc s x l) := by
  cases l
  case midiQueue j hi => exact setRamWord_ramConfined x s (queueWord_inRam .midi j hi) hs
  case atmQueue j hi => exact setRamWord_ramConfined x s (queueWord_inRam .automation j hi) hs
  case out i => exact setRamWord_ramConfined x s (outWord_inRam i) hs
  case wt bank i => exact setRamWord_ramConfined x s (wtWord_inRam bank i) hs
  case wtBlen bank => cases bank <;> exact hs
  all_goals exact hs

theorem SameStore.ramConfined {s t : State} (h : SameStore s t) (hs : RamConfined s) : RamConfined t := by
  unfold RamConfined
  rw [h.ram]
  exact hs

theorem storeChange_ramConfined (s t : State) (h : StoreChange s t) (hs : RamConfined s) : RamConfined t := by
  cases h with
  | frame h => exact h.ramConfined hs
  | write _ x l => exact writeLoc_ramConfined s x l hs
  | compact => exact hs
  | reset => exact ⟨reset_ram_wf, fun _ hc => absurd hc List.not_mem_nil⟩

/-- Settles O56: RAM changes only by word writes inside the four RAMs, and by the reset input, which empties it. -/
theorem ramStaysCanonicalAndConfined : Obligations.RamStaysCanonicalAndConfined := by
  unfold Obligations.RamStaysCanonicalAndConfined
  exact step_keeps storeChange_ramConfined

end Sys2Proof.Proofs
end

section
/-! SUPPORT. The filtered registers outside the voices stay legal (R101, R117-R132): what each write filter stores, the
registers as records of legal groups, and the writes. Settles O57. -/

namespace Sys2Proof.Proofs

-- One proof after another, as in the tests: proofs checked at once would hold too many threads.
set_option Elab.async false

open Sys2Proof.Machine Sys2Proof.Config Sys2Proof.Safety

/-! ### What a write filter stores (R21) -/

theorem clamp_inRange {lo hi : F32} (h : fLe lo hi = true) (x : F32) : InRange lo hi (clamp x lo hi) := by
  obtain ⟨hlo, hhi, hle⟩ := (fLe_iff lo hi).1 h
  simp only [InRange, fLe_iff, clamp]
  split
  · exact ⟨⟨hlo, hlo, le_rfl⟩, hlo, hhi, hle⟩
  · rename_i hnot
    obtain ⟨hx, hnlt⟩ : isNaN x = false ∧ ¬ fLt x lo = true := by simpa using hnot
    have hge : fOrd lo ≤ fOrd x := not_lt.1 fun hlt => hnlt ((fLt_iff x lo).2 ⟨hx, hlo, hlt⟩)
    split
    · exact ⟨⟨hlo, hhi, hle⟩, hhi, hhi, le_rfl⟩
    · rename_i hngt
      exact ⟨⟨hlo, hx, hge⟩, hx, hhi, not_lt.1 fun hgt => hngt ((fLt_iff hi x).2 ⟨hhi, hx, hgt⟩)⟩

theorem finite_isFinite (x : F32) : isFinite (finite x) = true := by
  unfold finite
  split
  · decide
  · rename_i hnan
    split
    · cases fSign x <;> decide
    · rename_i hinf
      have hle : fMag x ≤ 0x7F800000 := (isNaN_false_iff x).1 (by simpa using hnan)
      have hne : fMag x ≠ infMag := by simpa [isInf] using hinf
      rw [isFinite, decide_eq_true_eq]
      exact lt_of_le_of_ne hle hne

theorem uclamp_bounds (x lo hi : Word) (h : lo ≤ hi) :
    lo.toNat ≤ (uclamp x lo hi).toNat ∧ (uclamp x lo hi).toNat ≤ hi.toNat := by
  have hle : lo.toNat ≤ hi.toNat := h
  unfold uclamp
  split
  · exact ⟨le_rfl, hle⟩
  · rename_i hnlt
    have hge : lo.toNat ≤ x.toNat := not_lt.1 hnlt
    split
    · exact ⟨hle, le_rfl⟩
    · rename_i hngt
      exact ⟨hge, not_lt.1 hngt⟩

theorem wtLen_bounds (x : Word) : 1 ≤ (uclamp x 1#32 (BitVec.ofNat 32 WT_LEN)).toNat ∧
    (uclamp x 1#32 (BitVec.ofNat 32 WT_LEN)).toNat ≤ WT_LEN :=
  uclamp_bounds x 1#32 (BitVec.ofNat 32 WT_LEN) (by decide)

theorem uniOfCode_bounds (u : BitVec 4) : 1 ≤ (uniOfCode u).toNat ∧ (uniOfCode u).toNat ≤ NUNI_MAX := by
  revert u; decide

/-! ### Legal groups of registers -/

/-- An envelope patch group with legal values (R126). -/
structure EnvPatchLegal (p : EnvPatch) : Prop where
  attack : InRange f0 f60 p.attack
  decay : InRange f0 f60 p.decay
  sustainDb : InRange fNeg96 f0 p.sustainDb
  release : InRange f0 f60 p.release

/-- An oscillator patch group with legal values (R127). -/
structure OscPatchLegal (p : OscPatch) : Prop where
  uni : 1 ≤ p.uni.toNat ∧ p.uni.toNat ≤ NUNI_MAX
  tune : InRange fNeg48 f48 p.tune
  spread : InRange f0 f12 p.spread
  gain : InRange f0 f1 p.gain
  fm0 : InRange f0 f1 p.fm0
  fm1 : InRange f0 f1 p.fm1

/-- A filter patch with legal values (R128). -/
structure FltPatchLegal (p : FltPatch) : Prop where
  cutoff : InRange f0 f127 p.cutoff
  resDb : InRange fNeg30 fNegTenth p.resDb
  eqGainDb : InRange fNeg24 f24 p.eqGainDb
  envAmt : InRange fNeg127 f127 p.envAmt

/-- Patch registers with legal values (R126-R130). -/
structure PatchLegal (p : Patch) : Prop where
  env : ∀ e : Fin NENV, EnvPatchLegal p.env[e]
  osc : ∀ o : Fin NOSC, OscPatchLegal p.osc[o]
  sync : p.osc[0].sync = false
  flt : FltPatchLegal p.flt
  mmBase : ∀ d : Fin NDEST, isFinite p.mmBase[d] = true
  macroVal : ∀ k : Fin NMACRO, isFinite p.macroVal[k] = true
  lfoIn : InRange fNeg1 f1 p.lfoIn
  fastRTime : InRange f0 f60 p.fastRTime
  waitSamples : 1 ≤ p.waitSamples.toNat
  envDbFloor : InRange fNeg96 fNeg1 p.envDbFloor

/-- `RegistersLegal` by name: the patch registers are one of its fields. -/
structure LegalStore (s : State) : Prop where
  sampleRate : InRange f8000 f192000 s.sampleRate
  pitchBend : InRange fNeg48 f48 s.pitchBend
  wtBlen0 : 1 ≤ s.wtBlen0.toNat ∧ s.wtBlen0.toNat ≤ WT_LEN
  wtBlen1 : 1 ≤ s.wtBlen1.toNat ∧ s.wtBlen1.toNat ≤ WT_LEN
  cc : ∀ i : Fin NCC, isFinite s.cc[i] = true
  depth : ∀ r : Fin NROUTE, isFinite s.depth[r] = true
  patch : PatchLegal s.patch

theorem registersLegal_iff (s : State) : RegistersLegal s ↔ LegalStore s := by
  constructor
  · rintro ⟨hsr, hpb, hb0, hb1, hcc, hdepth, henv, hosc, hsync, hcut, hres, heq, hamt, hbase, hmac, hlfo, hfast,
      hwait, hfloor⟩
    refine ⟨hsr, hpb, hb0, hb1, hcc, hdepth, fun e => ?_, fun o => ?_, hsync, ⟨hcut, hres, heq, hamt⟩, hbase, hmac,
      hlfo, hfast, hwait, hfloor⟩
    · obtain ⟨ha, hd, hs, hr⟩ := henv e
      exact ⟨ha, hd, hs, hr⟩
    · obtain ⟨hlo, hhi, ht, hsp, hg, h0, h1⟩ := hosc o
      exact ⟨⟨hlo, hhi⟩, ht, hsp, hg, h0, h1⟩
  · rintro ⟨hsr, hpb, hb0, hb1, hcc, hdepth, henv, hosc, hsync, ⟨hcut, hres, heq, hamt⟩, hbase, hmac, hlfo, hfast,
      hwait, hfloor⟩
    refine ⟨hsr, hpb, hb0, hb1, hcc, hdepth, fun e => ?_, fun o => ?_, hsync, hcut, hres, heq, hamt, hbase, hmac,
      hlfo, hfast, hwait, hfloor⟩
    · obtain ⟨ha, hd, hs, hr⟩ := henv e
      exact ⟨ha, hd, hs, hr⟩
    · obtain ⟨⟨hlo, hhi⟩, ht, hsp, hg, h0, h1⟩ := hosc o
      exact ⟨hlo, hhi, ht, hsp, hg, h0, h1⟩

/-! ### Writes of one group -/

theorem writeEnvPatch_legal (x : Word) {p : EnvPatch} (r : EnvPatchReg) (h : EnvPatchLegal p) :
    EnvPatchLegal (writeEnvPatch x p r) := by
  cases r with
  | attack => exact { h with attack := clamp_inRange (by decide) x }
  | decay => exact { h with decay := clamp_inRange (by decide) x }
  | sustainDb => exact { h with sustainDb := clamp_inRange (by decide) x }
  | release => exact { h with release := clamp_inRange (by decide) x }
  | delay | hold | cfg => exact { h with }

theorem writeOscPatch_legal (o : Fin NOSC) (x : Word) {p : OscPatch} (r : OscPatchReg) (h : OscPatchLegal p) :
    OscPatchLegal (writeOscPatch o x p r) := by
  cases r with
  | cfg => exact { h with uni := uniOfCode_bounds _ }
  | tune => exact { h with tune := clamp_inRange (by decide) x }
  | spread => exact { h with spread := clamp_inRange (by decide) x }
  | gain => exact { h with gain := clamp_inRange (by decide) x }
  | fm0 => exact { h with fm0 := clamp_inRange (by decide) x }
  | fm1 => exact { h with fm1 := clamp_inRange (by decide) x }

/-- SYNC stays 0 in the group of oscillator 0 (R551). -/
theorem writeOscPatch_sync (x : Word) {p : OscPatch} (r : OscPatchReg) (h : p.sync = false) :
    (writeOscPatch 0 x p r).sync = false := by
  cases r with
  | cfg => exact Bool.and_false _
  | tune | spread | gain | fm0 | fm1 => exact h

/-- A property of every element is kept when the changed element has it. -/
theorem forall_vmod {α : Type} {n : Nat} {P : α → Prop} {xs : Vector α n} {i : Fin n} {f : α → α}
    (h : ∀ j : Fin n, P xs[j]) (hf : P xs[i] → P (f xs[i])) (j : Fin n) : P (vmod xs i f)[j] := by
  by_cases hj : i = j
  · subst hj
    show P (vmod xs i f)[i.val]
    rw [vmod_get_same]
    exact hf (h i)
  · show P (vmod xs i f)[j.val]
    rw [vmod_get_other xs i f j.val j.isLt fun e => hj (Fin.ext e)]
    exact h j

/-- A register array of finite values stays one when a word is written through FINITE. -/
theorem isFinite_set {n : Nat} {xs : Vector F32 n} {i : Fin n} (h : ∀ j : Fin n, isFinite xs[j] = true) (x : Word)
    (j : Fin n) : isFinite (xs.set i.val (finite x) i.isLt)[j] = true :=
  @forall_vmod F32 n (isFinite · = true) xs i (fun _ => finite x) h (fun _ => finite_isFinite x) j

theorem oscPatch_write_legal (o : Fin NOSC) (x : Word) (r : OscPatchReg) {p : Patch} (h : PatchLegal p) :
    PatchLegal { p with osc := vmod p.osc o (fun q => writeOscPatch o x q r) } where
  __ := h
  osc := forall_vmod h.osc (writeOscPatch_legal o x r)
  sync := by
    by_cases ho : o = 0
    · subst ho
      show (vmod p.osc 0 _)[(0 : Fin NOSC).val].sync = false
      rw [vmod_get_same]
      exact writeOscPatch_sync x r h.sync
    · show (vmod p.osc o _)[0].sync = false
      rw [vmod_get_other p.osc o _ 0 (by decide) fun e => ho (Fin.ext e)]
      exact h.sync

/-! ### Every change -/

theorem writeLoc_legal (s : State) (x : Word) (l : Loc) (h : LegalStore s) : LegalStore (writeLoc s x l) := by
  have hp := h.patch
  cases l with
  | sampleRate => exact { h with sampleRate := clamp_inRange (by decide) x }
  | pitchBend => exact { h with pitchBend := clamp_inRange (by decide) x }
  | wtBlen bank =>
    cases bank
    · exact { h with wtBlen0 := wtLen_bounds x }
    · exact { h with wtBlen1 := wtLen_bounds x }
  | cc i => exact { h with cc := isFinite_set h.cc x }
  | depth r => exact { h with depth := isFinite_set h.depth x }
  | envPatch e r => exact { h with patch := { hp with env := forall_vmod hp.env (writeEnvPatch_legal x r) } }
  | oscPatch o r => exact { h with patch := oscPatch_write_legal o x r hp }
  | fltCfg => exact { h with patch := { hp with flt := { hp.flt with } } }
  | fltCutoff => exact { h with patch := { hp with flt := { hp.flt with cutoff := clamp_inRange (by decide) x } } }
  | fltResDb => exact { h with patch := { hp with flt := { hp.flt with resDb := clamp_inRange (by decide) x } } }
  | fltEqGainDb =>
    exact { h with patch := { hp with flt := { hp.flt with eqGainDb := clamp_inRange (by decide) x } } }
  | fltEnvAmt => exact { h with patch := { hp with flt := { hp.flt with envAmt := clamp_inRange (by decide) x } } }
  | slotActive => exact { h with patch := { hp with } }
  | mmBase d => exact { h with patch := { hp with mmBase := isFinite_set hp.mmBase x } }
  | macroVal k => exact { h with patch := { hp with macroVal := isFinite_set hp.macroVal x } }
  | lfoIn => exact { h with patch := { hp with lfoIn := clamp_inRange (by decide) x } }
  | fastRTime => exact { h with patch := { hp with fastRTime := clamp_inRange (by decide) x } }
  | waitSamples =>
    exact { h with patch := { hp with waitSamples := (uclamp_bounds x 1#32 0xFFFFFFFF#32 (by decide)).1 } }
  | envDbFloor => exact { h with patch := { hp with envDbFloor := clamp_inRange (by decide) x } }
  | id | version | cfg0 | cfg1 | cfg2 | status | cmd | result | errCause | errInfo | errLoc | sampleIdx
  | voiceFree _ | arg _ | irqStatus | irqEnable | blockLen | midiCount | atmCount | wtCtrl | wtLock
  | midiQueue _ _ | atmQueue _ _ | out _ | wt _ _ | voice _ _ => exact { h with }

theorem SameStore.legal {s t : State} (h : SameStore s t) (hs : LegalStore s) : LegalStore t where
  sampleRate := h.sampleRate ▸ hs.sampleRate
  pitchBend := h.pitchBend ▸ hs.pitchBend
  wtBlen0 := h.wtBlen0 ▸ hs.wtBlen0
  wtBlen1 := h.wtBlen1 ▸ hs.wtBlen1
  cc := h.cc ▸ hs.cc
  depth := h.depth ▸ hs.depth
  patch := h.patch ▸ hs.patch

theorem reset_envPatch_legal : EnvPatchLegal EnvPatch.reset :=
  ⟨⟨rfl, rfl⟩, ⟨rfl, rfl⟩, ⟨rfl, rfl⟩, ⟨rfl, rfl⟩⟩

theorem reset_oscPatch_legal (wave : Waveform) : OscPatchLegal (OscPatch.reset wave) :=
  ⟨uniOfCode_bounds 1#4, ⟨rfl, rfl⟩, ⟨rfl, rfl⟩, ⟨rfl, rfl⟩, ⟨rfl, rfl⟩, ⟨rfl, rfl⟩⟩

theorem reset_fltPatch_legal : FltPatchLegal FltPatch.reset :=
  ⟨⟨rfl, rfl⟩, ⟨rfl, rfl⟩, ⟨rfl, rfl⟩, ⟨rfl, rfl⟩⟩

/-- A register array that resets to zero. -/
theorem replicate_zero_finite (n : Nat) (i : Fin n) : isFinite (Vector.replicate n f0)[i] = true := by
  have hi : (Vector.replicate n f0)[i] = f0 := Vector.getElem_replicate i.isLt
  rw [hi]; rfl

theorem reset_patch_legal : PatchLegal Patch.reset where
  env e := by
    have he : Patch.reset.env[e] = EnvPatch.reset := Vector.getElem_replicate e.isLt
    rw [he]; exact reset_envPatch_legal
  osc := Fin.forall_fin_two.2 ⟨reset_oscPatch_legal .saw, reset_oscPatch_legal .off⟩
  sync := rfl
  flt := reset_fltPatch_legal
  mmBase := replicate_zero_finite NDEST
  macroVal := replicate_zero_finite NMACRO
  lfoIn := ⟨rfl, rfl⟩
  fastRTime := ⟨rfl, rfl⟩
  waitSamples := by decide
  envDbFloor := ⟨rfl, rfl⟩

theorem reset_legal (s : State) : LegalStore (resetInput s) where
  sampleRate := ⟨rfl, rfl⟩
  pitchBend := ⟨rfl, rfl⟩
  wtBlen0 := ⟨show 1 ≤ 1024 by decide, le_rfl⟩
  wtBlen1 := ⟨show 1 ≤ 1024 by decide, le_rfl⟩
  cc := replicate_zero_finite NCC
  depth := replicate_zero_finite NROUTE
  patch := reset_patch_legal

theorem storeChange_registersLegal (s t : State) (h : StoreChange s t) (hs : RegistersLegal s) :
    RegistersLegal t := by
  rw [registersLegal_iff] at hs ⊢
  cases h with
  | frame h => exact h.legal hs
  | write _ x l => exact writeLoc_legal s x l hs
  | compact => exact { hs with }
  | reset => exact reset_legal s

/-- Settles O57: the filtered registers are only written through their write filters, by the bus and by events. -/
theorem filteredRegistersStayLegal : Obligations.FilteredRegistersStayLegal := by
  unfold Obligations.FilteredRegistersStayLegal
  exact step_keeps storeChange_registersLegal

end Sys2Proof.Proofs
end

section
/-! SUPPORT. The registers of 10_state.md on the bus: each register of `Safety.registers` is one location of the model's
address map, with the same word and the same write; a bus access of a location then is one of the register. Settles
O60. -/

namespace Sys2Proof.Proofs

-- One proof after another, as in the tests: proofs checked at once would hold too many threads.
set_option Elab.async false

open Sys2Proof.Machine Sys2Proof.Config Sys2Proof.Safety

/-! ### A register and its location -/

/-- A location whose bus accesses only read and store: all but CMD and WT_LOCK (R113, R232). -/
def plain : Loc → Bool
  | .cmd | .wtLock => false
  | _ => true

/-- The word-aligned address `a` of the bus is the plain location `l`. -/
abbrev Found (a : Nat) (l : Loc) : Prop :=
  a % 4 = 0 ∧ a < 0x20000 ∧ decodeAddr a = some l ∧ plain l = true

/-- The register `r` is the location `l` of the model. -/
structure IsLoc (r : Register) (l : Loc) : Prop where
  found : Found r.addr l
  read : ∀ s, readLoc s l = r.read s
  write : ∀ s x, writeLoc s x l = r.write x s

/-- Every register of the list is a location. -/
def Located (rs : List Register) : Prop := ∀ r ∈ rs, ∃ l, IsLoc r l

theorem Located.nil : Located [] := fun _ h => absurd h List.not_mem_nil

theorem Located.cons {r : Register} {l : Loc} {rs : List Register} (h : IsLoc r l) (hs : Located rs) :
    Located (r :: rs) := List.forall_mem_cons.2 ⟨⟨l, h⟩, hs⟩

theorem Located.append {rs qs : List Register} (h : Located rs) (k : Located qs) : Located (rs ++ qs) :=
  List.forall_mem_append.2 ⟨h, k⟩

theorem Located.flatMap {n : Nat} {f : Fin n → List Register} (h : ∀ i, Located (f i)) :
    Located ((List.finRange n).flatMap f) := by
  intro r hr
  obtain ⟨i, -, hi⟩ := List.mem_flatMap.1 hr
  exact h i r hi

theorem Located.map {n : Nat} {f : Fin n → Register} {l : Fin n → Loc} (h : ∀ i, IsLoc (f i) (l i)) :
    Located ((List.finRange n).map f) := by
  intro r hr
  obtain ⟨i, -, rfl⟩ := List.mem_map.1 hr
  exact ⟨l i, h i⟩

/-! ### Bus accesses of a location -/

theorem misaligned_ofNat {a : Nat} (h : a % 4 = 0) : misaligned (BitVec.ofNat 32 a) = false := by
  have hlow : (BitVec.ofNat 32 a).extractLsb' 0 2 = 0#2 := by
    apply BitVec.eq_of_toNat_eq
    simp only [BitVec.extractLsb'_toNat, BitVec.toNat_ofNat]
    omega
  simp [misaligned, hlow]

theorem readEffect_plain {l : Loc} (s : State) (h : plain l = true) : readEffect l s = s := by
  cases l
  case wtLock => cases h
  all_goals rfl

theorem storeLoc_plain {l : Loc} (x : Word) (s : State) (h : plain l = true) :
    storeLoc l x s = .next (writeLoc s x l) := by
  cases l
  case cmd => cases h
  all_goals rfl

theorem decodeAddr_wt (bank : Bool) {a : Nat} (h : wtAddr bank 0 ≤ a) (h' : a < wtAddr bank WT_LEN) :
    ∃ i, decodeAddr a = some (.wt bank i) := by
  cases bank
  · have hlo : 0x8000 ≤ a := h
    have hhi : a < 0x9000 := h'
    refine ⟨⟨(a - 0x8000) / 4, show _ < 1024 by omega⟩, ?_⟩
    unfold decodeAddr
    iterate 10 rw [if_neg (by omega)]
    rw [if_pos (by omega), element, dif_pos]
  · have hlo : 0xC000 ≤ a := h
    have hhi : a < 0xD000 := h'
    refine ⟨⟨(a - 0xC000) / 4, show _ < 1024 by omega⟩, ?_⟩
    unfold decodeAddr
    iterate 11 rw [if_neg (by omega)]
    rw [if_pos (by omega), element, dif_pos]

/-- The list of R212 and the model's agree where an address is mapped. -/
theorem writable_of_busyWritable {s : State} {a : Nat} {l : Loc} (hl : decodeAddr a = some l)
    (h : busyWritable s a = true) : writableWhileBusy s l = true := by
  have single {b : Nat} (k : Loc) (hb : decodeAddr b = some k) (hk : writableWhileBusy s k = true) (hab : a = b) :
      writableWhileBusy s l = true := by
    rw [hab, hb, Option.some.injEq] at hl
    exact hl ▸ hk
  have bank {b : Bool} (hb : b ≠ s.activeBank) (ha : wtAddr b 0 ≤ a ∧ a < wtAddr b WT_LEN) :
      writableWhileBusy s l = true := by
    obtain ⟨i, hi⟩ := decodeAddr_wt b ha.1 ha.2
    exact single (.wt b i) hi (by simpa [writableWhileBusy] using hb) rfl
  unfold busyWritable at h
  simp only [Bool.or_eq_true, beq_iff_eq, or_assoc] at h
  rcases h with h | h | h | h | h | h
  · exact single .cmd rfl rfl h
  · exact single .irqStatus rfl rfl h
  · exact single .irqEnable rfl rfl h
  · exact single .wtCtrl rfl rfl h
  · exact single .wtLock rfl rfl h
  · split at h
    next hbank =>
      have hne : false ≠ s.activeBank := by simp [hbank]
      simp only [Bool.or_eq_true, beq_iff_eq, Bool.and_eq_true, decide_eq_true_eq] at h
      rcases h with h | h
      · exact single (.wtBlen false) rfl (by simpa [writableWhileBusy] using hne) h
      · exact bank hne h
    next hbank =>
      have hne : true ≠ s.activeBank := by simpa using hbank
      simp only [Bool.or_eq_true, beq_iff_eq, Bool.and_eq_true, decide_eq_true_eq] at h
      rcases h with h | h
      · exact single (.wtBlen true) rfl (by simpa [writableWhileBusy] using hne) h
      · exact bank hne h

theorem IsLoc.busRead {r : Register} {l : Loc} (h : IsLoc r l) (s : State) :
    busRead (BitVec.ofNat 32 r.addr) s = { s with busData := r.read s } := by
  obtain ⟨halign, hsmall, hdecode, hplain⟩ := h.found
  have haddr : (BitVec.ofNat 32 r.addr).toNat = r.addr := Nat.mod_eq_of_lt (hsmall.trans (by decide))
  unfold Machine.busRead
  rw [misaligned_ofNat halign, haddr, hdecode]
  simp only [Bool.false_eq_true, if_false]
  rw [readEffect_plain s hplain, h.read]
  rfl

theorem IsLoc.busWrite {r : Register} {l : Loc} (h : IsLoc r l) (s : State) (x : Word)
    (hs : s.busy = false ∨ busyWritable s r.addr = true) :
    busWrite (BitVec.ofNat 32 r.addr) x s = .next (r.write x s) := by
  obtain ⟨halign, hsmall, hdecode, hplain⟩ := h.found
  have haddr : (BitVec.ofNat 32 r.addr).toNat = r.addr := Nat.mod_eq_of_lt (hsmall.trans (by decide))
  have hopen : (s.busy && !writableWhileBusy s l) = false := by
    rcases hs with hs | hs
    · rw [hs, Bool.false_and]
    · rw [writable_of_busyWritable hdecode hs, Bool.not_true, Bool.and_false]
  unfold Machine.busWrite
  rw [misaligned_ofNat halign, haddr, hdecode]
  simp only [hopen, Bool.false_eq_true, if_false]
  rw [storeLoc_plain x s hplain, h.write]

/-! ### Where the registers are -/

theorem global_found : ∀ p ∈ globalMap, plain p.2 = true → Found p.1 p.2 := by decide

theorem voiceFree_found : ∀ w : Fin 8, Found (0x080 + 4 * w.val) (.voiceFree w) := by decide

theorem envPatch_found : ∀ e : Fin NENV, ∀ p ∈ envPatchMap, Found (0x100 + e.val * 0x20 + p.1) (.envPatch e p.2) := by
  decide

theorem oscPatch_found : ∀ o : Fin NOSC, ∀ p ∈ oscPatchMap, Found (0x200 + o.val * 0x20 + p.1) (.oscPatch o p.2) := by
  decide

theorem patch_found : ∀ p ∈ patchMap, Found p.1 p.2 := by decide

theorem mmBase_found : ∀ d : Fin NDEST, Found (0x300 + 4 * d.val) (.mmBase d) := by decide

theorem macroVal_found : ∀ k : Fin NMACRO, Found (0x380 + 4 * k.val) (.macroVal k) := by decide

theorem cc_found (i : Fin NCC) : Found (0x400 + 4 * i.val) (.cc i) := by
  have hi : i.val < 128 := i.isLt
  have hindex : (0x400 + 4 * i.val - 0x400) / 4 = i.val := by omega
  refine ⟨by omega, by omega, ?_, rfl⟩
  unfold decodeAddr
  iterate 4 rw [if_neg (by omega)]
  rw [if_pos (by omega), element, hindex, dif_pos i.isLt]

theorem depth_found (r : Fin NROUTE) : Found (0x800 + 4 * r.val) (.depth r) := by
  have hr : r.val < 108 := r.isLt
  have hindex : (0x800 + 4 * r.val - 0x800) / 4 = r.val := by omega
  refine ⟨by omega, by omega, ?_, rfl⟩
  unfold decodeAddr
  iterate 5 rw [if_neg (by omega)]
  rw [if_pos (by omega), element, hindex, dif_pos r.isLt]

/-- The word-aligned offset `f` of a voice block is the field `r`. -/
abbrev VoiceFound (f : Nat) (r : VoiceReg) : Prop := f % 4 = 0 ∧ f < 0x1000 ∧ decodeVoice f = some r

theorem decodeAddr_voice {a : Nat} (v : Fin NVOICE) (ha : 0x10000 ≤ a) (hv : (a - 0x10000) / 0x1000 = v.val) :
    decodeAddr a = (decodeVoice ((a - 0x10000) % 0x1000)).map (.voice v) := by
  unfold decodeAddr
  iterate 12 rw [if_neg (by omega)]
  simp only [hv, v.isLt, dif_pos]

theorem voice_found (v : Fin NVOICE) {a f : Nat} {r : VoiceReg} (ha : a = voiceBase v + f) (h : VoiceFound f r) :
    Found a (.voice v r) := by
  obtain ⟨halign, hsmall, hdecode⟩ := h
  have hv : v.val < 16 := v.isLt
  have hbase : a = 0x10000 + v.val * 0x1000 + f := ha
  have hblock : (a - 0x10000) / 0x1000 = v.val := by omega
  have hoffset : (a - 0x10000) % 0x1000 = f := by omega
  refine ⟨by omega, by omega, ?_, rfl⟩
  rw [decodeAddr_voice v (by omega) hblock, hoffset, hdecode]
  rfl

theorem voiceReg_found (v : Fin NVOICE) (p : Nat × VoiceReg) (hp : p ∈ voiceMap) :
    Found (voiceBase v + p.1) (.voice v p.2) := by
  have h : ∀ p ∈ voiceMap, VoiceFound p.1 p.2 := by decide
  exact voice_found v rfl (h p hp)

theorem envReg_found (v : Fin NVOICE) (e : Fin NENV) (p : Nat × EnvReg) (hp : p ∈ envMap) :
    Found (voiceBase v + 0x040 + e.val * 0x40 + p.1) (.voice v (.env e p.2)) := by
  have h : ∀ e : Fin NENV, ∀ p ∈ envMap, VoiceFound (0x040 + e.val * 0x40 + p.1) (.env e p.2) := by decide
  exact voice_found v (by omega) (h e p hp)

theorem oscReg_found (v : Fin NVOICE) (o : Fin NOSC) (p : Nat × OscReg) (hp : p ∈ oscMap) :
    Found (voiceBase v + 0x200 + o.val * 0x80 + p.1) (.voice v (.osc o p.2)) := by
  have h : ∀ o : Fin NOSC, ∀ p ∈ oscMap, VoiceFound (0x200 + o.val * 0x80 + p.1) (.osc o p.2) := by decide
  exact voice_found v (by omega) (h o p hp)

theorem phase_found (v : Fin NVOICE) (o : Fin NOSC) (u : Fin NUNI_MAX) :
    Found (voiceBase v + 0x200 + o.val * 0x80 + (0x40 + 4 * u.val)) (.voice v (.osc o (.phase u))) := by
  have h : ∀ (o : Fin NOSC) (u : Fin NUNI_MAX),
      VoiceFound (0x200 + o.val * 0x80 + (0x40 + 4 * u.val)) (.osc o (.phase u)) := by decide
  exact voice_found v (by omega) (h o u)

theorem inc_found (v : Fin NVOICE) (o : Fin NOSC) (u : Fin NUNI_MAX) :
    Found (voiceBase v + 0x200 + o.val * 0x80 + (0x60 + 4 * u.val)) (.voice v (.osc o (.inc u))) := by
  have h : ∀ (o : Fin NOSC) (u : Fin NUNI_MAX),
      VoiceFound (0x200 + o.val * 0x80 + (0x60 + 4 * u.val)) (.osc o (.inc u)) := by decide
  exact voice_found v (by omega) (h o u)

theorem fltReg_found (v : Fin NVOICE) (p : Nat × FltReg) (hp : p ∈ fltMap) :
    Found (voiceBase v + 0x300 + p.1) (.voice v (.flt p.2)) := by
  have h : ∀ p ∈ fltMap, VoiceFound (0x300 + p.1) (.flt p.2) := by decide
  exact voice_found v (by omega) (h p hp)

theorem sectionReg_found (v : Fin NVOICE) (k : Fin NSEC) (p : Nat × SectionReg) (hp : p ∈ sectionMap) :
    Found (voiceBase v + 0x340 + 0x20 * k.val + p.1) (.voice v (.flt (.sec k p.2))) := by
  have h : ∀ k : Fin NSEC, ∀ p ∈ sectionMap, VoiceFound (0x340 + 0x20 * k.val + p.1) (.flt (.sec k p.2)) := by
    decide
  exact voice_found v (by omega) (h k p hp)

theorem live_found (v : Fin NVOICE) (d : Fin NDEST) :
    Found (voiceBase v + 0x400 + 4 * d.val) (.voice v (.live d)) := by
  have h : ∀ d : Fin NDEST, VoiceFound (0x400 + 4 * d.val) (.live d) := by decide
  exact voice_found v (by omega) (h d)

/-- The list region of a voice block (R145): eight bytes for each entry. -/
theorem decodeVoice_list {f : Nat} (i : Fin NROUTE) (hf : 0x600 ≤ f) (hi : (f - 0x600) / 8 = i.val) :
    decodeVoice f = some (if (f - 0x600) % 8 = 0 then .listIdx i else .listDepth i) := by
  unfold decodeVoice
  iterate 5 rw [if_neg (by omega)]
  simp only [hi, i.isLt, dif_pos]

theorem listIdx_found (v : Fin NVOICE) (i : Fin NROUTE) :
    Found (voiceBase v + 0x600 + 8 * i.val) (.voice v (.listIdx i)) := by
  have hi : i.val < 108 := i.isLt
  refine voice_found v (show _ = voiceBase v + (0x600 + 8 * i.val) by omega) ⟨by omega, by omega, ?_⟩
  rw [decodeVoice_list i (by omega) (by omega), if_pos (by omega)]

theorem listDepth_found (v : Fin NVOICE) (i : Fin NROUTE) :
    Found (voiceBase v + 0x604 + 8 * i.val) (.voice v (.listDepth i)) := by
  have hi : i.val < 108 := i.isLt
  refine voice_found v (show _ = voiceBase v + (0x604 + 8 * i.val) by omega) ⟨by omega, by omega, ?_⟩
  rw [decodeVoice_list i (by omega) (by omega), if_neg (by omega)]

end Sys2Proof.Proofs
end

section
/-! SUPPORT. The words and the stored fields of the registers, where the model and the tables of 10_state.md write them
differently: packed fields, codes and clamps. -/

namespace Sys2Proof.Proofs

-- One proof after another, as in the tests: proofs checked at once would hold too many threads.
set_option Elab.async false

open Sys2Proof.Machine Sys2Proof.Config Sys2Proof.Safety

/-! ### Fields of a word -/

theorem extractLsb'_eq_bits (x : Word) (lo n : Nat) : x.extractLsb' lo n = BitVec.ofNat n (bits x lo n) := by
  apply BitVec.eq_of_toNat_eq
  simp [bits, Nat.shiftRight_eq_div_pow]

theorem toNat_extractLsb' (x : Word) (lo n : Nat) : (x.extractLsb' lo n).toNat = bits x lo n := by
  rw [extractLsb'_eq_bits, BitVec.toNat_ofNat]
  exact Nat.mod_mod _ _

theorem bits_lt (x : Word) (lo n : Nat) : bits x lo n < 2 ^ n := Nat.mod_lt _ (Nat.two_pow_pos n)

/-- A register with one field from bit 0 on. -/
theorem packed_one (n : Nat) : packed [(0, n)] = BitVec.ofNat 32 n := by simp [packed]

/-- A register with three fields. -/
theorem packed_three (a b c i j k : Nat) :
    packed [(i, a), (j, b), (k, c)] = BitVec.ofNat 32 (0 + a * 2 ^ i + b * 2 ^ j + c * 2 ^ k) := rfl

theorem toNat_append_eq {m n : Nat} (a : BitVec m) (b : BitVec n) :
    (a ++ b).toNat = a.toNat * 2 ^ n + b.toNat := by
  rw [BitVec.toNat_append, ← Nat.shiftLeft_add_eq_or_of_lt b.isLt, Nat.shiftLeft_eq]

theorem setWidth_eq_packed {n : Nat} (b : BitVec n) : b.setWidth 32 = packed [(0, b.toNat)] := by
  rw [packed_one]
  apply BitVec.eq_of_toNat_eq
  simp

theorem flagBit_eq_toNat (b : Bool) : flagBit b = b.toNat := by cases b <;> rfl

theorem flag_eq_packed (b : Bool) : BitVec.ofNat 32 (flagBit b) = packed [(0, b.toNat)] := by
  rw [packed_one, flagBit_eq_toNat]

/-! ### Codes -/

theorem causeCode_eq (c : Cause) : causeCode c = causes.idxOf c := by cases c <;> rfl
theorem stageCode_eq (st : Stage) : stageCode st = stages.idxOf st := by cases st <;> rfl
theorem waveCode_eq (w : Waveform) : waveCode w = waves.idxOf w := by cases w <;> rfl
theorem fltTypeCode_eq (t : FltType) : fltTypeCode t = fltTypes.idxOf t := by cases t <;> rfl
theorem polesCode_eq (p : Poles) : polesCode p = poleCounts.idxOf p + 1 := by cases p <;> rfl
theorem osCode_eq (o : Oversampling) : osCode o = factors.idxOf o := by cases o <;> rfl

theorem stageOfCode_eq : ∀ n < 8, stageOfCode n = stages.getD n .off := by decide
theorem waveOfCode_eq : ∀ n < 8, waveOfCode n = waves.getD (min n 5) .off := by decide
theorem fltTypeOfCode_eq : ∀ n < 8, fltTypeOfCode n = fltTypes.getD (min n 5) .off := by decide
theorem polesOfCode_eq : ∀ n < 4, polesOfCode n = poleCounts.getD (max n 1 - 1) .two := by decide
theorem osOfCode_eq : ∀ n < 4, osOfCode n = factors.getD (min n 2) .x1 := by decide
theorem uniOfCode_eq (u : BitVec 4) : uniOfCode u = BitVec.ofNat 4 (max 1 (min u.toNat 7)) := by
  revert u; decide

/-! ### Words that reads return -/

theorem statusWord_eq (s : State) :
    statusWord s = packed [(0, s.busy.toNat), (1, s.fault.toNat), (2, s.panicPend.toNat)] := by
  simp [statusWord, packed, flagBit_eq_toNat, Nat.mul_comm]

theorem wtCtrlWord_eq (s : State) : wtCtrlWord s = packed [(0, s.activeBank.toNat), (1, s.swapReq.toNat)] := by
  simp [wtCtrlWord, packed, flagBit_eq_toNat, Nat.mul_comm]

theorem oscCfgWord_eq (p : OscPatch) :
    oscCfgWord p = packed [(0, waves.idxOf p.wave), (4, p.uni.toNat), (8, p.sync.toNat)] := by
  simp [oscCfgWord, packed, flagBit_eq_toNat, waveCode_eq]

theorem fltCfgWord_eq (p : FltPatch) : fltCfgWord p =
    packed [(0, fltTypes.idxOf p.type), (4, poleCounts.idxOf p.poles + 1), (8, factors.idxOf p.os)] := by
  simp [fltCfgWord, packed, fltTypeCode_eq, polesCode_eq, osCode_eq]

theorem envCtrlWord_eq (E : Env) : envCtrlWord E = packed [(0, stages.idxOf E.stage), (8, E.mode.toNat)] := by
  simp [envCtrlWord, packed, flagBit_eq_toNat, stageCode_eq]

theorem routeIdxWord_toNat (r : Route) :
    (routeIdxWord r).toNat = r.source.toNat * 2 ^ 16 + r.control.toNat * 2 ^ 8 + r.slot.toNat := by
  rw [routeIdxWord, toNat_append_eq, toNat_append_eq, toNat_append_eq, BitVec.toNat_zero]
  omega

theorem routeIdxWord_eq (r : Route) :
    routeIdxWord r = packed [(0, r.slot.toNat), (8, r.control.toNat), (16, r.source.toNat)] := by
  apply BitVec.eq_of_toNat_eq
  rw [routeIdxWord_toNat, packed_three, BitVec.toNat_ofNat]
  omega

theorem voiceActive_eq (V : Voice) :
    BitVec.ofNat 32 (flagBit (voiceActive V)) = packed [(0, if V.env[0].stage = .off then 0 else 1)] := by
  rw [packed_one, flagBit, voiceActive]
  by_cases h : V.env[0].stage = .off <;> simp [h]

theorem errCause_eq (s : State) : BitVec.ofNat 32 (causeCode s.errCause) = packed [(0, causes.idxOf s.errCause)] := by
  rw [packed_one, causeCode_eq]

/-! ### What writes store -/

theorem writeOscCfg_eq (o : Fin NOSC) (x : Word) (p : OscPatch) : writeOscPatch o x p .cfg =
    { p with wave := waves.getD (min (bits x 0 3) 5) .off
             uni := BitVec.ofNat 4 (max 1 (min (bits x 4 4) 7))
             sync := o.val != 0 && x.getLsbD 8 } := by
  have hsync : (x.getLsbD 8 && decide (o = 1)) = (o.val != 0 && x.getLsbD 8) := by
    rw [Bool.and_comm]
    congr 1
    revert o; decide
  simp only [writeOscPatch, toNat_extractLsb', uniOfCode_eq, waveOfCode_eq _ (bits_lt x 0 3), hsync]

theorem writeFltCfg_eq (x : Word) (p : FltPatch) : writeFltCfg x p =
    { p with type := fltTypes.getD (min (bits x 0 3) 5) .off
             poles := poleCounts.getD (max (bits x 4 2) 1 - 1) .two
             os := factors.getD (min (bits x 8 2) 2) .x1 } := by
  simp only [writeFltCfg, toNat_extractLsb', fltTypeOfCode_eq _ (bits_lt x 0 3), polesOfCode_eq _ (bits_lt x 4 2),
    osOfCode_eq _ (bits_lt x 8 2)]

theorem writeEnvCtrl_eq (x : Word) (E : Env) : writeEnv x E .ctrl =
    { E with stage := stages.getD (bits x 0 3) .off, mode := x.getLsbD 8 } := by
  simp only [writeEnv, toNat_extractLsb', stageOfCode_eq _ (bits_lt x 0 3)]

/-- WAIT_SAMPLES is at least 1, and every other word is stored as it is (R130). -/
theorem uclamp_one_max (x : Word) : uclamp x 1#32 0xFFFFFFFF#32 = if x = 0#32 then 1#32 else x := by
  have hlow : x < 1#32 ↔ x = 0#32 := by bv_omega
  have hhigh : ¬ (0xFFFFFFFF#32 < x) := by bv_omega
  simp only [uclamp, hlow, if_neg hhigh]

/-- A write of a read-only field of a voice leaves the state (R101). -/
theorem modVoice_id (v : Fin NVOICE) (s : State) : modVoice v (fun V => V) s = s := by
  simp [modVoice, vmod]

/-! ### VOICE_FREE -/

/-- The bit of VOICE_FREE for voice j; 0 where there is none (R122). -/
def freeBit (s : State) (j : Nat) : Nat :=
  if h : j < NVOICE then (if s.voice[j].env[0].stage = .off then 1 else 0) else 0

/-- A fold that adds a term for each element is the sum of the terms. -/
theorem foldl_add_eq_sum {α : Type} (g : α → Nat) (l : List α) :
    l.foldl (fun acc a => acc + g a) 0 = (l.map g).sum := by
  rw [List.sum_eq_foldl, List.foldl_map]

theorem voiceFreeWord_eq_sum (s : State) (w : Nat) : voiceFreeWord s w = BitVec.ofNat 32
    (∑ v ∈ Finset.range NVOICE, if v / 32 = w then freeBit s v * 2 ^ (v % 32) else 0) := by
  have hterm (acc : Nat) (v : Fin NVOICE) :
      (if v.val / 32 = w ∧ !voiceActive s.voice[v] then acc + 2 ^ (v.val % 32) else acc) =
      acc + if v.val / 32 = w then freeBit s v.val * 2 ^ (v.val % 32) else 0 := by
    by_cases hv : v.val / 32 = w <;> by_cases hoff : s.voice[v.val].env[0].stage = .off <;>
      simp [hv, hoff, voiceActive, freeBit]
  unfold voiceFreeWord
  simp only [hterm, foldl_add_eq_sum]
  rw [Finset.sum_range, Fin.sum_univ_def]

theorem voiceFreeRegister_read (s : State) (w : Fin 8) : (voiceFreeRegister w).read s =
    BitVec.ofNat 32 (∑ j ∈ Finset.range 32, freeBit s (32 * w.val + j) * 2 ^ j) := by
  show packed _ = _
  rw [packed, foldl_add_eq_sum, List.map_map]
  rfl

/-- Word 0 holds the bits of all voices; the other words have none (R122). -/
theorem voiceFreeWord_eq (s : State) (w : Fin 8) : voiceFreeWord s w.val = (voiceFreeRegister w).read s := by
  have hnone {j : Nat} (h : NVOICE ≤ j) : freeBit s j = 0 := dif_neg (not_lt.2 h)
  rw [voiceFreeWord_eq_sum, voiceFreeRegister_read]
  refine congrArg (BitVec.ofNat 32) ?_
  by_cases hw : w.val = 0
  · calc ∑ v ∈ Finset.range NVOICE, (if v / 32 = w.val then freeBit s v * 2 ^ (v % 32) else 0)
      _ = ∑ j ∈ Finset.range NVOICE, freeBit s (32 * w.val + j) * 2 ^ j := by
        refine Finset.sum_congr rfl fun j hj => ?_
        have hj : j < 16 := Finset.mem_range.1 hj
        rw [if_pos (by omega), hw, Nat.mul_zero, Nat.zero_add, Nat.mod_eq_of_lt (by omega)]
      _ = ∑ j ∈ Finset.range 32, freeBit s (32 * w.val + j) * 2 ^ j := by
        refine Finset.sum_subset (Finset.range_mono (by decide)) fun j _ hj => ?_
        have hj : NVOICE ≤ j := not_lt.1 fun h => hj (Finset.mem_range.2 h)
        rw [hnone (hj.trans (Nat.le_add_left _ _)), Nat.zero_mul]
  · rw [Finset.sum_eq_zero, Finset.sum_eq_zero]
    · intro j _
      rw [hnone (show 16 ≤ _ by omega), Nat.zero_mul]
    · intro v hv
      have hv : v < 16 := Finset.mem_range.1 hv
      rw [if_neg (by omega)]

end Sys2Proof.Proofs
end

section
/-! SUPPORT. Every register of `Safety.registers` is a location, table by table (R110-R145): a row names its location,
and says more only where the table and the model write the word or the stored value differently. Settles O60. -/

namespace Sys2Proof.Proofs

-- One proof after another, as in the tests: proofs checked at once would hold too many threads.
set_option Elab.async false

open Sys2Proof.Machine Sys2Proof.Config Sys2Proof.Safety

/-! ### Global registers -/

theorem global_isLoc {r : Register} (l : Loc) (hmap : (r.addr, l) ∈ globalMap := by decide)
    (hplain : plain l = true := by rfl) (hread : ∀ s, readLoc s l = r.read s := by exact fun _ => rfl)
    (hwrite : ∀ s x, writeLoc s x l = r.write x s := by exact fun _ _ => rfl) : IsLoc r l :=
  ⟨global_found _ hmap hplain, hread, hwrite⟩

theorem arg_isLoc (k : Fin 4) : IsLoc (argRegister k) (.arg k) where
  found := by revert k; decide
  read _ := rfl
  write _ _ := rfl

theorem voiceFree_isLoc (w : Fin 8) : IsLoc (voiceFreeRegister w) (.voiceFree w) where
  found := voiceFree_found w
  read s := voiceFreeWord_eq s w
  write _ _ := rfl

theorem writeIrqStatus_eq (s : State) (x : Word) : writeLoc s x .irqStatus =
    { s with irqStatus := s.irqStatus &&& ~~~(BitVec.ofNat 3 (bits x 0 3)) } := by
  rw [← extractLsb'_eq_bits]; rfl

theorem writeIrqEnable_eq (s : State) (x : Word) : writeLoc s x .irqEnable =
    { s with irqEnable := BitVec.ofNat 3 (bits x 0 3) } := by
  rw [← extractLsb'_eq_bits]; rfl

theorem globalRegisters_located : Located globalRegisters :=
  .append
    (.cons (global_isLoc .id) <| .cons (global_isLoc .version) <| .cons (global_isLoc .cfg0) <|
      .cons (global_isLoc .cfg1) <| .cons (global_isLoc .cfg2) <|
      .cons ⟨global_found (0x014, .status) (by decide) rfl, statusWord_eq, fun _ _ => rfl⟩ <|
      .cons (global_isLoc .result) <|
      .cons ⟨global_found (0x030, .errCause) (by decide) rfl, errCause_eq, fun _ _ => rfl⟩ <|
      .cons (global_isLoc .errInfo) <|
      .cons (global_isLoc .errLoc) .nil)
    (.cons ⟨global_found (0x03C, .irqStatus) (by decide) rfl, fun s => setWidth_eq_packed s.irqStatus,
        writeIrqStatus_eq⟩ <|
      .cons ⟨global_found (0x040, .irqEnable) (by decide) rfl, fun s => setWidth_eq_packed s.irqEnable,
        writeIrqEnable_eq⟩ <|
      .cons (global_isLoc .sampleRate) <| .cons (global_isLoc .blockLen) <| .cons (global_isLoc .midiCount) <|
      .cons (global_isLoc .atmCount) <| .cons (global_isLoc .sampleIdx) <| .cons (global_isLoc .pitchBend) <|
      .cons ⟨global_found (0x060, .wtCtrl) (by decide) rfl, wtCtrlWord_eq, fun _ _ => rfl⟩ <|
      .cons (global_isLoc (.wtBlen false)) <|
      .cons (global_isLoc (.wtBlen true)) .nil)

/-! ### Patch registers, the CC table and the depth table -/

theorem envPatch_isLoc {r : Register} {off : Nat} (e : Fin NENV) (reg : EnvPatchReg)
    (haddr : r.addr = 0x100 + e.val * 0x20 + off := by rfl) (hmap : (off, reg) ∈ envPatchMap := by decide)
    (hread : ∀ s, readLoc s (.envPatch e reg) = r.read s := by exact fun _ => rfl)
    (hwrite : ∀ s x, writeLoc s x (.envPatch e reg) = r.write x s := by exact fun _ _ => rfl) :
    IsLoc r (.envPatch e reg) :=
  ⟨haddr ▸ envPatch_found e _ hmap, hread, hwrite⟩

theorem envPatchRegisters_located (e : Fin NENV) : Located (envPatchRegisters e) :=
  .cons (envPatch_isLoc e .attack) <| .cons (envPatch_isLoc e .decay) <| .cons (envPatch_isLoc e .sustainDb) <|
    .cons (envPatch_isLoc e .release) <| .cons (envPatch_isLoc e .delay) <| .cons (envPatch_isLoc e .hold) <|
    .cons ⟨envPatch_found e (0x18, .cfg) (by decide), fun s => flag_eq_packed s.patch.env[e].mode,
      fun _ _ => rfl⟩ .nil

theorem oscPatch_isLoc {r : Register} {off : Nat} (o : Fin NOSC) (reg : OscPatchReg)
    (haddr : r.addr = 0x200 + o.val * 0x20 + off := by rfl) (hmap : (off, reg) ∈ oscPatchMap := by decide)
    (hread : ∀ s, readLoc s (.oscPatch o reg) = r.read s := by exact fun _ => rfl)
    (hwrite : ∀ s x, writeLoc s x (.oscPatch o reg) = r.write x s := by exact fun _ _ => rfl) :
    IsLoc r (.oscPatch o reg) :=
  ⟨haddr ▸ oscPatch_found o _ hmap, hread, hwrite⟩

theorem oscPatchRegisters_located (o : Fin NOSC) : Located (oscPatchRegisters o) :=
  .cons ⟨oscPatch_found o (0x00, .cfg) (by decide), fun s => oscCfgWord_eq s.patch.osc[o],
      fun s x => congrArg (withOscPatch s o) (writeOscCfg_eq o x s.patch.osc[o])⟩ <|
    .cons (oscPatch_isLoc o .tune) <| .cons (oscPatch_isLoc o .spread) <| .cons (oscPatch_isLoc o .gain) <|
    .cons (oscPatch_isLoc o .fm0) <| .cons (oscPatch_isLoc o .fm1) .nil

theorem patch_isLoc {r : Register} (l : Loc) (hmap : (r.addr, l) ∈ patchMap := by decide)
    (hread : ∀ s, readLoc s l = r.read s := by exact fun _ => rfl)
    (hwrite : ∀ s x, writeLoc s x l = r.write x s := by exact fun _ _ => rfl) : IsLoc r l :=
  ⟨patch_found _ hmap, hread, hwrite⟩

theorem fltPatchRegisters_located : Located fltPatchRegisters :=
  .cons ⟨patch_found (0x280, .fltCfg) (by decide), fun s => fltCfgWord_eq s.patch.flt,
      fun s x => congrArg (withFltPatch s) (writeFltCfg_eq x s.patch.flt)⟩ <|
    .cons (patch_isLoc .fltCutoff) <| .cons (patch_isLoc .fltResDb) <| .cons (patch_isLoc .fltEqGainDb) <|
    .cons (patch_isLoc .fltEnvAmt) .nil

theorem writeSlotActive_eq (s : State) (x : Word) : writeLoc s x .slotActive =
    withPatch s { s.patch with slotActive := BitVec.ofNat NSLOT (bits x 0 4) } := by
  rw [← extractLsb'_eq_bits]; rfl

theorem writeWaitSamples_eq (s : State) (x : Word) : writeLoc s x .waitSamples =
    withPatch s { s.patch with waitSamples := if x = 0#32 then 1#32 else x } := by
  rw [← uclamp_one_max]; rfl

theorem miscPatchRegisters_located : Located miscPatchRegisters :=
  .cons ⟨patch_found (0x2C0, .slotActive) (by decide), fun s => setWidth_eq_packed s.patch.slotActive,
      writeSlotActive_eq⟩ <|
    .cons (patch_isLoc .lfoIn) <| .cons (patch_isLoc .fastRTime) <|
    .cons ⟨patch_found (0x398, .waitSamples) (by decide), fun _ => rfl, writeWaitSamples_eq⟩ <|
    .cons (patch_isLoc .envDbFloor) .nil

theorem mmBase_isLoc (d : Fin NDEST) : IsLoc (mmBaseRegister d) (.mmBase d) :=
  ⟨mmBase_found d, fun _ => rfl, fun _ _ => rfl⟩

theorem macroVal_isLoc (k : Fin NMACRO) : IsLoc (macroRegister k) (.macroVal k) :=
  ⟨macroVal_found k, fun _ => rfl, fun _ _ => rfl⟩

theorem cc_isLoc (i : Fin NCC) : IsLoc (ccRegister i) (.cc i) :=
  ⟨cc_found i, fun _ => rfl, fun _ _ => rfl⟩

theorem depth_isLoc (r : Fin NROUTE) : IsLoc (depthRegister r) (.depth r) :=
  ⟨depth_found r, fun _ => rfl, fun _ _ => rfl⟩

/-! ### Voice blocks -/

theorem voiceReg_isLoc {r : Register} {off : Nat} (v : Fin NVOICE) (reg : VoiceReg)
    (haddr : r.addr = voiceBase v + off := by rfl) (hmap : (off, reg) ∈ voiceMap := by decide)
    (hread : ∀ s, readVoice s.voice[v] reg = r.read s := by exact fun _ => rfl)
    (hwrite : ∀ s x, modVoice v (fun V => writeVoice x V reg) s = r.write x s := by exact fun _ _ => rfl) :
    IsLoc r (.voice v reg) :=
  ⟨haddr ▸ voiceReg_found v _ hmap, hread, hwrite⟩

theorem writeVel_eq (x : Word) (V : Voice) : writeVoice x V .vel = { V with vel := BitVec.ofNat 7 (bits x 0 7) } := by
  rw [← extractLsb'_eq_bits]; rfl

theorem writeSlots_eq (x : Word) (V : Voice) :
    writeVoice x V .slots = { V with slots := BitVec.ofNat NSLOT (bits x 0 4) } := by
  rw [← extractLsb'_eq_bits]; rfl

theorem voiceRegisters_located (v : Fin NVOICE) : Located (voiceRegisters v) :=
  .cons (voiceReg_isLoc v .note) <|
    .cons ⟨voiceReg_found v (0x004, .vel) (by decide), fun s => setWidth_eq_packed s.voice[v].vel,
      fun s x => congrArg (withVoice s v) (writeVel_eq x s.voice[v])⟩ <|
    .cons (voiceReg_isLoc v .amp) <|
    .cons ⟨voiceReg_found v (0x00C, .slots) (by decide), fun s => setWidth_eq_packed s.voice[v].slots,
      fun s x => congrArg (withVoice s v) (writeSlots_eq x s.voice[v])⟩ <|
    .cons ⟨voiceReg_found v (0x010, .mmCount) (by decide), fun _ => rfl, fun s _ => modVoice_id v s⟩ <|
    .cons ⟨voiceReg_found v (0x014, .status) (by decide), fun s => voiceActive_eq s.voice[v],
      fun s _ => modVoice_id v s⟩ .nil

theorem envReg_isLoc {r : Register} {off : Nat} (v : Fin NVOICE) (e : Fin NENV) (reg : EnvReg)
    (haddr : r.addr = voiceBase v + 0x040 + e.val * 0x40 + off := by rfl) (hmap : (off, reg) ∈ envMap := by decide)
    (hread : ∀ s, readEnv s.voice[v].env[e] reg = r.read s := by exact fun _ => rfl)
    (hwrite : ∀ s x, withEnv s v e (writeEnv x s.voice[v].env[e] reg) = r.write x s := by
      exact fun _ _ => rfl) : IsLoc r (.voice v (.env e reg)) :=
  ⟨haddr ▸ envReg_found v e _ hmap, hread, hwrite⟩

theorem envRegisters_located (v : Fin NVOICE) (e : Fin NENV) : Located (envRegisters v e) :=
  .append
    (.cons ⟨envReg_found v e (0x00, .ctrl) (by decide), fun s => envCtrlWord_eq s.voice[v].env[e],
        fun s x => congrArg (withEnv s v e) (writeEnvCtrl_eq x s.voice[v].env[e])⟩ <|
      .cons (envReg_isLoc v e .out) <| .cons (envReg_isLoc v e .outDb) <| .cons (envReg_isLoc v e .cnt) <|
      .cons (envReg_isLoc v e .aInc) <| .cons (envReg_isLoc v e .dInc) <| .cons (envReg_isLoc v e .rInc) <|
      .cons (envReg_isLoc v e .sLin) .nil)
    (.cons (envReg_isLoc v e .sDb) <| .cons (envReg_isLoc v e .aIncDb) <| .cons (envReg_isLoc v e .dIncDb) <|
      .cons (envReg_isLoc v e .rIncDb) <| .cons (envReg_isLoc v e .delayN) <| .cons (envReg_isLoc v e .holdN) <|
      .cons (envReg_isLoc v e .thr) <| .cons (envReg_isLoc v e .dbFloor) .nil)

theorem oscReg_isLoc {r : Register} (v : Fin NVOICE) (o : Fin NOSC) (reg : OscReg)
    (hfound : Found r.addr (.voice v (.osc o reg)))
    (hread : ∀ s, readOsc s.voice[v].osc[o] reg = r.read s := by exact fun _ => rfl)
    (hwrite : ∀ s x, withOsc s v o (writeOsc x s.voice[v].osc[o] reg) = r.write x s := by
      exact fun _ _ => rfl) : IsLoc r (.voice v (.osc o reg)) :=
  ⟨hfound, hread, hwrite⟩

theorem oscRegisters_located (v : Fin NVOICE) (o : Fin NOSC) : Located (oscRegisters v o) :=
  .append
    (.cons (oscReg_isLoc v o .out (oscReg_found v o (0x00, .out) (by decide))) <|
      .cons ⟨oscReg_found v o (0x04, .flags) (by decide), fun s => flag_eq_packed s.voice[v].osc[o].wrap,
        fun _ _ => rfl⟩ <|
      .cons (oscReg_isLoc v o .syncPh (oscReg_found v o (0x08, .syncPh) (by decide))) <|
      .cons (oscReg_isLoc v o .fmIn (oscReg_found v o (0x0C, .fmIn) (by decide))) .nil)
    (.flatMap fun u =>
      .cons (oscReg_isLoc v o (.phase u) (phase_found v o u)) <|
      .cons (oscReg_isLoc v o (.inc u) (inc_found v o u)) .nil)

theorem fltReg_isLoc {r : Register} {off : Nat} (v : Fin NVOICE) (reg : FltReg)
    (haddr : r.addr = voiceBase v + 0x300 + off := by rfl) (hmap : (off, reg) ∈ fltMap := by decide)
    (hread : ∀ s, readFlt s.voice[v].flt reg = r.read s := by exact fun _ => rfl)
    (hwrite : ∀ s x, withFlt s v (writeFlt x s.voice[v].flt reg) = r.write x s := by exact fun _ _ => rfl) :
    IsLoc r (.voice v (.flt reg)) :=
  ⟨haddr ▸ fltReg_found v _ hmap, hread, hwrite⟩

theorem fltRegisters_located (v : Fin NVOICE) : Located (fltRegisters v) :=
  .cons (fltReg_isLoc v .base) <| .cons (fltReg_isLoc v .mod) <| .cons (fltReg_isLoc v .last) <|
    .cons ⟨fltReg_found v (0x0C, .flags) (by decide), fun s => flag_eq_packed s.voice[v].flt.valid, fun _ _ => rfl⟩ <|
    .cons (fltReg_isLoc v .hz) <| .cons (fltReg_isLoc v .coef) <| .cons (fltReg_isLoc v .res) .nil

theorem sectionReg_isLoc {r : Register} {off : Nat} (v : Fin NVOICE) (k : Fin NSEC) (reg : SectionReg)
    (haddr : r.addr = voiceBase v + 0x340 + 0x20 * k.val + off := by rfl)
    (hmap : (off, reg) ∈ sectionMap := by decide)
    (hread : ∀ s, readSection s.voice[v].flt.sec[k] reg = r.read s := by exact fun _ => rfl)
    (hwrite : ∀ s x, withFlt s v (writeFlt x s.voice[v].flt (.sec k reg)) = r.write x s := by
      exact fun _ _ => rfl) : IsLoc r (.voice v (.flt (.sec k reg))) :=
  ⟨haddr ▸ sectionReg_found v k _ hmap, hread, hwrite⟩

theorem sectionRegisters_located (v : Fin NVOICE) (k : Fin NSEC) : Located (sectionRegisters v k) :=
  .cons (sectionReg_isLoc v k .bp) <| .cons (sectionReg_isLoc v k .bpM1) <| .cons (sectionReg_isLoc v k .lp) <|
    .cons (sectionReg_isLoc v k .lpM1) <| .cons (sectionReg_isLoc v k .hp) .nil

theorem live_isLoc (v : Fin NVOICE) (d : Fin NDEST) : IsLoc (liveRegister v d) (.voice v (.live d)) :=
  ⟨live_found v d, fun _ => rfl, fun s _ => modVoice_id v s⟩

theorem listRegisters_located (v : Fin NVOICE) (i : Fin NROUTE) : Located (listRegisters v i) :=
  .cons ⟨listIdx_found v i, fun s => routeIdxWord_eq s.voice[v].list[i], fun s _ => modVoice_id v s⟩ <|
    .cons ⟨listDepth_found v i, fun _ => rfl, fun s _ => modVoice_id v s⟩ .nil

theorem voiceBlockRegisters_located (v : Fin NVOICE) : Located (voiceBlockRegisters v) :=
  (((((voiceRegisters_located v).append (.flatMap (envRegisters_located v))).append
    (.flatMap (oscRegisters_located v))).append (fltRegisters_located v)).append
    (.flatMap (sectionRegisters_located v))).append (.map (live_isLoc v)) |>.append
    (.flatMap (listRegisters_located v))

/-! ### All registers -/

theorem registers_located : Located registers :=
  ((((((((((Located.map arg_isLoc).append globalRegisters_located).append (.map voiceFree_isLoc)).append
    (.flatMap envPatchRegisters_located)).append (.flatMap oscPatchRegisters_located)).append
    fltPatchRegisters_located).append miscPatchRegisters_located).append (.map mmBase_isLoc)).append
    (.map macroVal_isLoc)).append (.map cc_isLoc)).append (.map depth_isLoc) |>.append
    (.flatMap voiceBlockRegisters_located)

/-- Settles O60: every register is a location of the model's map, and an access of a location is one of the
register. -/
theorem busReachesEveryRegister : Obligations.BusReachesEveryRegister := by
  unfold Obligations.BusReachesEveryRegister
  intro s
  refine ⟨fun r hr => ?_, rfl⟩
  obtain ⟨l, hl⟩ := registers_located r hr
  exact ⟨hl.busRead s, hl.busWrite s⟩

end Sys2Proof.Proofs
end

section
/-! SUPPORT. The address map of R220 (20_memory.md): the model's decoder maps the words that R220 lists and no others,
what it can answer, and what a bus access does where it is misaligned, unmapped or refused while a block runs. Settles
O10, O11 and O12. -/

namespace Sys2Proof.Proofs

-- One proof after another, as in the tests: proofs checked at once would hold too many threads.
set_option Elab.async false

open Sys2Proof.Machine Sys2Proof.Config Sys2Proof.Safety

/-! ### Misaligned accesses -/

theorem misaligned_iff (a : Word) : misaligned a = true ↔ a.toNat % 4 ≠ 0 := by
  simp [misaligned, ← BitVec.toNat_inj]

/-- ERR_LOC of an access, field by field: [31] in a block, [28:16] the sample (R913). -/
theorem accessLoc_eq_fields (s : State) : accessLoc s =
    if s.busy then ((1#1 ++ 0#2) ++ s.schedI.extractLsb' 0 13) ++ 0#16 else 0#32 := by
  unfold accessLoc
  split
  · apply BitVec.eq_of_toNat_eq
    simp only [toNat_append_eq, BitVec.extractLsb'_toNat, BitVec.toNat_ofNat, Nat.shiftRight_zero]
    omega
  · rfl

/-! ### Mapped words -/

theorem patchMapped_iff (a : Nat) : patchMapped a = true ↔
    (0x100 ≤ a ∧ a < 0x1C0 ∧ a % 0x20 ≤ 0x18) ∨ (0x200 ≤ a ∧ a < 0x240 ∧ a % 0x20 ≤ 0x14) ∨
    (0x280 ≤ a ∧ a ≤ 0x290) ∨ a = 0x2C0 ∨ (0x300 ≤ a ∧ a < 0x330) ∨ (0x380 ≤ a ∧ a ≤ 0x39C) := by
  simp [patchMapped, or_assoc, and_assoc, NENV, NOSC, NDEST, NSLOT, NCTRL]

theorem voiceOffsetMapped_iff (f : Nat) : voiceOffsetMapped f = true ↔
    f ≤ 0x14 ∨ (0x40 ≤ f ∧ f < 0x1C0) ∨
    (0x200 ≤ f ∧ f < 0x300 ∧ (f % 0x80 ≤ 0x0C ∨ (0x40 ≤ f % 0x80 ∧ f % 0x80 < 0x5C) ∨
      (0x60 ≤ f % 0x80 ∧ f % 0x80 < 0x7C))) ∨
    (0x300 ≤ f ∧ f ≤ 0x318) ∨ (0x340 ≤ f ∧ f < 0x3A0 ∧ f % 0x20 ≤ 0x10) ∨
    (0x400 ≤ f ∧ f < 0x430) ∨ (0x600 ≤ f ∧ f < 0x960) := by
  simp [voiceOffsetMapped, or_assoc, and_assoc, NENV, NOSC, NUNI_MAX, NSEC, NDEST, NROUTE, NSLOT, NCTRL, NSRC]

/-- The map below the voice blocks, as address ranges (R220). -/
theorem mapped_iff_low {a : Nat} (h : a < 0x10000) : mapped a = true ↔
    a ≤ 0x58 ∨ (0x60 ≤ a ∧ a ≤ 0x6C) ∨ (0x80 ≤ a ∧ a ≤ 0x9C) ∨ patchMapped a = true ∨
    (0x400 ≤ a ∧ a < 0x600) ∨ (0x800 ≤ a ∧ a < 0x9B0) ∨ ramMapped a = true := by
  have hvoice : ¬ 0x10000 ≤ a := by omega
  simp [mapped, depthMapped, or_assoc, hvoice, NCC, NROUTE, NSLOT, NCTRL, NSRC]

theorem mapped_iff_voice {a : Nat} (h : 0x10000 ≤ a) :
    mapped a = true ↔ a < 0x20000 ∧ voiceOffsetMapped (a % 0x1000) = true := by
  have hpatch : ¬ patchMapped a = true := by rw [patchMapped_iff]; omega
  have hram : ¬ ramMapped a = true := by rw [ramMapped_iff]; omega
  have hlow : ¬ a ≤ 0x58 ∧ ¬ a ≤ 0x6C ∧ ¬ a ≤ 0x9C ∧ ¬ a < 0x600 ∧ ¬ a < 0x9B0 := by omega
  simp [mapped, depthMapped, hpatch, hram, hlow, h, NVOICE, NCC, NROUTE, NSLOT, NCTRL, NSRC]

/-! ### The tables of the decoder list the words of R220 -/

theorem lookup_isSome_iff {β : Type} (l : List (Nat × β)) (a : Nat) :
    (l.lookup a).isSome = true ↔ a ∈ l.map Prod.fst := by
  simp

theorem element_isSome_iff (n i : Nat) (f : Fin n → Loc) : (element n i f).isSome = true ↔ i < n := by
  unfold element
  split <;> simp [*]

/-- An array of `n` words, none in its unmapped tail. -/
theorem array_isSome_iff {β : Type} (n i : Nat) (g : Fin n → β) :
    (if h : i < n then some (g ⟨i, h⟩) else none).isSome = true ↔ i < n := by
  split <;> simp [*]

/-- An array of `n` groups, each with its own map. -/
theorem group_isSome_iff {α β : Type} (n i : Nat) (o : Option α) (g : Fin n → α → β) :
    (if h : i < n then o.map (g ⟨i, h⟩) else none).isSome = true ↔ i < n ∧ o.isSome = true := by
  split <;> simp [*]

theorem globalMap_isSome_iff {a : Nat} (h4 : a % 4 = 0) (hlt : a < 0x80) :
    (globalMap.lookup a).isSome = true ↔ a ≤ 0x58 ∨ (0x60 ≤ a ∧ a ≤ 0x6C) := by
  rw [lookup_isSome_iff]
  simp only [globalMap, List.map_cons, List.map_nil, List.mem_cons, List.not_mem_nil, or_false]
  omega

theorem envPatchMap_isSome_iff {f : Nat} (h4 : f % 4 = 0) : (envPatchMap.lookup f).isSome = true ↔ f ≤ 0x18 := by
  rw [lookup_isSome_iff]
  simp only [envPatchMap, List.map_cons, List.map_nil, List.mem_cons, List.not_mem_nil, or_false]
  omega

theorem oscPatchMap_isSome_iff {f : Nat} (h4 : f % 4 = 0) : (oscPatchMap.lookup f).isSome = true ↔ f ≤ 0x14 := by
  rw [lookup_isSome_iff]
  simp only [oscPatchMap, List.map_cons, List.map_nil, List.mem_cons, List.not_mem_nil, or_false]
  omega

theorem patchMap_isSome_iff {a : Nat} (h4 : a % 4 = 0) : (patchMap.lookup a).isSome = true ↔
    (0x280 ≤ a ∧ a ≤ 0x290) ∨ a = 0x2C0 ∨ (0x380 ≤ a ∧ a ≤ 0x39C) := by
  rw [lookup_isSome_iff]
  simp only [patchMap, List.map_cons, List.map_nil, List.mem_cons, List.not_mem_nil, or_false]
  omega

theorem voiceMap_isSome_iff {f : Nat} (h4 : f % 4 = 0) : (voiceMap.lookup f).isSome = true ↔ f ≤ 0x14 := by
  rw [lookup_isSome_iff]
  simp only [voiceMap, List.map_cons, List.map_nil, List.mem_cons, List.not_mem_nil, or_false]
  omega

theorem envMap_isSome_iff {f : Nat} (h4 : f % 4 = 0) : (envMap.lookup f).isSome = true ↔ f ≤ 0x3C := by
  rw [lookup_isSome_iff]
  simp only [envMap, List.map_cons, List.map_nil, List.mem_cons, List.not_mem_nil, or_false]
  omega

theorem oscMap_isSome_iff {f : Nat} (h4 : f % 4 = 0) : (oscMap.lookup f).isSome = true ↔ f ≤ 0x0C := by
  rw [lookup_isSome_iff]
  simp only [oscMap, List.map_cons, List.map_nil, List.mem_cons, List.not_mem_nil, or_false]
  omega

theorem fltMap_isSome_iff {f : Nat} (h4 : f % 4 = 0) : (fltMap.lookup f).isSome = true ↔ f ≤ 0x18 := by
  rw [lookup_isSome_iff]
  simp only [fltMap, List.map_cons, List.map_nil, List.mem_cons, List.not_mem_nil, or_false]
  omega

theorem sectionMap_isSome_iff {f : Nat} (h4 : f % 4 = 0) : (sectionMap.lookup f).isSome = true ↔ f ≤ 0x10 := by
  rw [lookup_isSome_iff]
  simp only [sectionMap, List.map_cons, List.map_nil, List.mem_cons, List.not_mem_nil, or_false]
  omega

/-! ### The windows of the decoder -/

/-- The decoder window by window: what holds of the answer in each window of the address map, and of none in the gaps
between them, holds of every answer (R220). -/
theorem decodeAddr_windows {P : Option Loc → Prop} (a : Nat)
    (global : a < 0x80 → P (globalMap.lookup a))
    (voiceFree : 0x80 ≤ a → a < 0xA0 → P (element 8 ((a - 0x80) / 4) .voiceFree))
    (gap : (0xA0 ≤ a ∧ a < 0x100) ∨ (0x1000 ≤ a ∧ a < 0x2000) → P none)
    (patch : 0x100 ≤ a → a < 0x400 → P (decodePatch a))
    (cc : 0x400 ≤ a → a < 0x800 → P (element NCC ((a - 0x400) / 4) .cc))
    (depth : 0x800 ≤ a → a < 0x1000 → P (element NROUTE ((a - 0x800) / 4) .depth))
    (midiQueue : 0x2000 ≤ a → a < 0x3000 →
      P (element EVQ_CAP ((a - 0x2000) / 8) (.midiQueue · ((a - 0x2000) % 8 == 4))))
    (atmQueue : 0x3000 ≤ a → a < 0x4000 →
      P (element EVQ_CAP ((a - 0x3000) / 8) (.atmQueue · ((a - 0x3000) % 8 == 4))))
    (out : 0x4000 ≤ a → a < 0x8000 → P (element MAX_BLOCK ((a - 0x4000) / 4) .out))
    (wt : ∀ bank, wtAddr bank 0 ≤ a → a < wtAddr bank 0 + 0x4000 →
      P (element WT_LEN ((a - wtAddr bank 0) / 4) (.wt bank)))
    (voice : 0x10000 ≤ a → P (if h : (a - 0x10000) / 0x1000 < NVOICE then
      (decodeVoice ((a - 0x10000) % 0x1000)).map (.voice ⟨(a - 0x10000) / 0x1000, h⟩) else none)) :
    P (decodeAddr a) := by
  have lower {n : Nat} {x y : Option Loc} (hx : a < n → P x) (hy : n ≤ a → P y) : P (if a < n then x else y) := by
    split
    · exact hx ‹_›
    · exact hy (Nat.le_of_not_lt ‹_›)
  unfold decodeAddr
  exact lower global fun h₁ => lower (voiceFree h₁) fun h₂ => lower (fun h => gap (.inl ⟨h₂, h⟩)) fun h₃ =>
    lower (patch h₃) fun h₄ => lower (cc h₄) fun h₅ => lower (depth h₅) fun h₆ =>
    lower (fun h => gap (.inr ⟨h₆, h⟩)) fun h₇ => lower (midiQueue h₇) fun h₈ => lower (atmQueue h₈) fun h₉ =>
    lower (out h₉) fun h₁₀ => lower (wt false h₁₀) fun h₁₁ => lower (wt true h₁₁) voice

/-! ### The decoder and the map of R220 -/

theorem decodePatch_isSome_iff {a : Nat} (h4 : a % 4 = 0) (hlo : 0x100 ≤ a) :
    (decodePatch a).isSome = true ↔ patchMapped a = true := by
  rw [patchMapped_iff]
  unfold decodePatch
  split
  · rw [group_isSome_iff, envPatchMap_isSome_iff (by omega), NENV]
    omega
  split
  · rw [group_isSome_iff, oscPatchMap_isSome_iff (by omega), NOSC]
    omega
  split
  · rw [element_isSome_iff, NDEST, NSLOT, NCTRL]
    omega
  · rw [patchMap_isSome_iff h4]
    omega

theorem decodeOsc_isSome_iff {f : Nat} (h4 : f % 4 = 0) : (decodeOsc f).isSome = true ↔
    f ≤ 0x0C ∨ (0x40 ≤ f ∧ f < 0x5C) ∨ (0x60 ≤ f ∧ f < 0x7C) := by
  unfold decodeOsc
  split
  · rw [array_isSome_iff, NUNI_MAX]
    omega
  split
  · rw [array_isSome_iff, NUNI_MAX]
    omega
  · rw [oscMap_isSome_iff h4]
    omega

theorem decodeFlt_isSome_iff {f : Nat} (h4 : f % 4 = 0) : (decodeFlt f).isSome = true ↔
    f ≤ 0x18 ∨ (0x40 ≤ f ∧ f < 0xA0 ∧ f % 0x20 ≤ 0x10) := by
  unfold decodeFlt
  split
  · rw [group_isSome_iff, sectionMap_isSome_iff (by omega), NSEC]
    omega
  · rw [fltMap_isSome_iff h4]
    omega

theorem decodeVoice_isSome_iff {f : Nat} (h4 : f % 4 = 0) :
    (decodeVoice f).isSome = true ↔ voiceOffsetMapped f = true := by
  rw [voiceOffsetMapped_iff]
  unfold decodeVoice
  split
  · rw [voiceMap_isSome_iff h4]
    omega
  split
  · rw [group_isSome_iff, envMap_isSome_iff (by omega), NENV]
    omega
  split
  · rw [group_isSome_iff, decodeOsc_isSome_iff (by omega), NOSC]
    omega
  split
  · rw [Option.isSome_map, decodeFlt_isSome_iff (by omega)]
    omega
  split
  · rw [array_isSome_iff, NDEST, NSLOT, NCTRL]
    omega
  · have hlist := array_isSome_iff NROUTE ((f - 0x600) / 8)
      fun i => if (f - 0x600) % 8 = 0 then VoiceReg.listIdx i else .listDepth i
    rw [hlist, NROUTE, NSLOT, NCTRL, NSRC]
    omega

/-- The decoder's map and the map of R220 have the same words. -/
theorem decodeAddr_isSome_iff {a : Nat} (h4 : a % 4 = 0) : (decodeAddr a).isSome = true ↔ mapped a = true := by
  have low (h : a < 0x10000) := mapped_iff_low h
  rw [patchMapped_iff, ramMapped_iff] at low
  apply decodeAddr_windows (P := fun o => o.isSome = true ↔ mapped a = true)
  case global =>
    intro h
    rw [globalMap_isSome_iff h4 h, low (by omega)]
    omega
  case voiceFree =>
    intro _ _
    rw [element_isSome_iff, low (by omega)]
    omega
  case gap =>
    intro h
    rw [low (by omega)]
    simp only [Option.isSome_none, Bool.false_eq_true, false_iff]
    omega
  case patch =>
    intro h _
    rw [decodePatch_isSome_iff h4 h, patchMapped_iff, low (by omega)]
    omega
  case cc =>
    intro _ _
    rw [element_isSome_iff, NCC, low (by omega)]
    omega
  case depth =>
    intro _ _
    rw [element_isSome_iff, NROUTE, NSLOT, NCTRL, NSRC, low (by omega)]
    omega
  case midiQueue | atmQueue =>
    intro _ _
    rw [element_isSome_iff, EVQ_CAP, low (by omega)]
    omega
  case out =>
    intro _ _
    rw [element_isSome_iff, MAX_BLOCK, low (by omega)]
    omega
  case wt =>
    intro bank
    rw [element_isSome_iff, WT_LEN]
    cases bank <;> simp only [wtAddr, if_true, if_false, Bool.false_eq_true] <;> intro _ _ <;>
      rw [low (by omega)] <;> omega
  case voice =>
    intro h
    have hoffset : (a - 0x10000) % 0x1000 = a % 0x1000 := by omega
    rw [mapped_iff_voice h, group_isSome_iff, hoffset, decodeVoice_isSome_iff (by omega), NVOICE]
    exact and_congr_left' (by omega)

theorem decodeAddr_eq_none {a : Nat} (h4 : a % 4 = 0) (h : mapped a = false) : decodeAddr a = none := by
  rw [← Option.not_isSome_iff_eq_none, decodeAddr_isSome_iff h4, h]
  exact Bool.false_ne_true

theorem decodeAddr_eq_some {a : Nat} (h4 : a % 4 = 0) (h : mapped a = true) : ∃ l, decodeAddr a = some l :=
  Option.isSome_iff_exists.1 ((decodeAddr_isSome_iff h4).2 h)

/-! ### Bus accesses by what the decoder answers -/

theorem busRead_misaligned {a : Word} (s : State) (h : a.toNat % 4 ≠ 0) :
    busRead a s = setBusData 0#32 (raiseAccess .busAlign a s) := by
  rw [busRead, if_pos ((misaligned_iff a).2 h), faultRead]

theorem busWrite_misaligned {a : Word} (x : Word) (s : State) (h : a.toNat % 4 ≠ 0) :
    busWrite a x s = .next (raiseAccess .busAlign a s) := by
  rw [busWrite, if_pos ((misaligned_iff a).2 h)]

theorem busRead_unmapped {a : Word} (s : State) (h4 : a.toNat % 4 = 0) (h : decodeAddr a.toNat = none) :
    busRead a s = setBusData 0#32 (raiseAccess .busUnmapped a s) := by
  rw [busRead, if_neg (by simp [misaligned_iff, h4]), h, faultRead]

theorem busWrite_unmapped {a : Word} (x : Word) (s : State) (h4 : a.toNat % 4 = 0)
    (h : decodeAddr a.toNat = none) : busWrite a x s = .next (raiseAccess .busUnmapped a s) := by
  rw [busWrite, if_neg (by simp [misaligned_iff, h4]), h]

theorem busRead_mapped {a : Word} {l : Loc} (s : State) (h4 : a.toNat % 4 = 0)
    (h : decodeAddr a.toNat = some l) : busRead a s = setBusData (readLoc s l) (readEffect l s) := by
  rw [busRead, if_neg (by simp [misaligned_iff, h4]), h]

theorem busWrite_mapped {a : Word} {l : Loc} (x : Word) (s : State) (h4 : a.toNat % 4 = 0)
    (h : decodeAddr a.toNat = some l) (hs : s.busy = false ∨ writableWhileBusy s l = true) :
    busWrite a x s = storeLoc l x s := by
  have hopen : ¬ (s.busy && !writableWhileBusy s l) = true := by rcases hs with hs | hs <;> simp [hs]
  rw [busWrite, if_neg (by simp [misaligned_iff, h4]), h]
  exact if_neg hopen

theorem busWrite_refused {a : Word} {l : Loc} (x : Word) (s : State) (h4 : a.toNat % 4 = 0)
    (h : decodeAddr a.toNat = some l) (hb : s.busy = true) (hl : writableWhileBusy s l = false) :
    busWrite a x s = .next (raiseAccess .busyWrite a s) := by
  rw [busWrite, if_neg (by simp [misaligned_iff, h4]), h]
  exact if_pos (by simp [hb, hl])

/-- Settles O10: the alignment is the first check of both accesses. -/
theorem misalignedAccessRaisesBusAlign : Obligations.MisalignedAccessRaisesBusAlign := by
  unfold Obligations.MisalignedAccessRaisesBusAlign
  intro s a x ha loc
  have hraise : raiseAccess .busAlign a s = raise .busAlign a loc s :=
    congrArg (raise .busAlign a · s) (accessLoc_eq_fields s)
  rw [busRead_misaligned s ha, busWrite_misaligned x s ha, hraise]
  exact ⟨rfl, rfl⟩

/-- Settles O11: the decoder has no location for an address R220 does not list. -/
theorem unmappedAccessRaisesBusUnmapped : Obligations.UnmappedAccessRaisesBusUnmapped := by
  unfold Obligations.UnmappedAccessRaisesBusUnmapped
  intro s a x h4 ha
  have hnone : decodeAddr a.toNat = none := decodeAddr_eq_none h4 ha
  exact ⟨busRead_unmapped s h4 hnone, busWrite_unmapped x s h4 hnone⟩

end Sys2Proof.Proofs
end

section
/-! SUPPORT. Writes while a block runs (20_memory.md R212): which locations the list of R212 names, and what a write to
one of them can change. Settles O12. -/

namespace Sys2Proof.Proofs

-- One proof after another, as in the tests: proofs checked at once would hold too many threads.
set_option Elab.async false

open Sys2Proof.Machine Sys2Proof.Config Sys2Proof.Safety

/-! ### The listed targets -/

theorem element_eq_some {n i : Nat} {f : Fin n → Loc} {l : Loc} (h : element n i f = some l) :
    ∃ k : Fin n, k.val = i ∧ l = f k := by
  unfold element at h
  split at h
  · exact ⟨_, rfl, (Option.some.inj h).symm⟩
  · cases h

theorem mem_of_lookup_eq_some {β : Type} {l : List (Nat × β)} {a : Nat} {b : β} (h : l.lookup a = some b) :
    (a, b) ∈ l := by
  obtain ⟨l₁, l₂, rfl, -⟩ := List.lookup_eq_some_iff.1 h
  simp

theorem decodePatch_automatable {a : Nat} {l : Loc} (h : decodePatch a = some l) : l.isAutomatable = true := by
  have single : ∀ p ∈ patchMap, p.2.isAutomatable = true := by decide
  unfold decodePatch at h
  split at h
  · split at h
    · obtain ⟨r, -, rfl⟩ := Option.map_eq_some_iff.1 h
      rfl
    · cases h
  split at h
  · split at h
    · obtain ⟨r, -, rfl⟩ := Option.map_eq_some_iff.1 h
      rfl
    · cases h
  split at h
  · obtain ⟨d, -, rfl⟩ := element_eq_some h
    rfl
  · exact single _ (mem_of_lookup_eq_some h)

theorem automatable_not_writable {s : State} {l : Loc} (h : l.isAutomatable = true) :
    writableWhileBusy s l = false := by
  cases l <;> first | rfl | cases h

/-- The location `l` at `a` is a global register or a wavetable word. -/
def GlobalOrWavetable (a : Nat) (l : Loc) : Prop :=
  (a, l) ∈ globalMap ∨ ∃ bank i, l = .wt bank i ∧ wtAddr bank 0 ≤ a ∧ a < wtAddr bank WT_LEN

/-- No target of R212 lies in another window of the address map. -/
theorem writable_globalOrWavetable {s : State} {a : Nat} {l : Loc} (h : decodeAddr a = some l)
    (hw : writableWhileBusy s l = true) : GlobalOrWavetable a l := by
  have closed {o : Option Loc} (ho : ∀ k, o = some k → writableWhileBusy s k = false) (hl : o = some l) :
      GlobalOrWavetable a l := absurd hw (by simp [ho l hl])
  have array {n i : Nat} {f : Fin n → Loc} (hf : ∀ k, writableWhileBusy s (f k) = false) (k : Loc)
      (hk : element n i f = some k) : writableWhileBusy s k = false := by
    obtain ⟨j, -, rfl⟩ := element_eq_some hk
    exact hf j
  refine decodeAddr_windows (P := fun o => o = some l → GlobalOrWavetable a l) a ?global ?voiceFree ?gap ?patch ?cc
    ?depth ?midiQueue ?atmQueue ?out ?wt ?voice h
  case global => exact fun _ hl => .inl (mem_of_lookup_eq_some hl)
  case gap => exact fun _ hl => nomatch hl
  case patch => exact fun _ _ => closed fun k hk => automatable_not_writable (decodePatch_automatable hk)
  case voiceFree | cc | depth | midiQueue | atmQueue | out => exact fun _ _ => closed (array fun _ => rfl)
  case wt =>
    intro bank hlo _ hl
    obtain ⟨i, hi, rfl⟩ := element_eq_some hl
    have hlt : i.val < 1024 := i.isLt
    refine .inr ⟨bank, i, rfl, hlo, ?_⟩
    unfold wtAddr at *
    omega
  case voice =>
    refine fun _ => closed fun k hk => ?_
    split at hk
    · obtain ⟨r, -, rfl⟩ := Option.map_eq_some_iff.1 hk
      rfl
    · cases hk

theorem globalMap_busyWritable (s : State) :
    ∀ p ∈ globalMap, writableWhileBusy s p.2 = true → busyWritable s p.1 = true := by
  cases h : s.activeBank <;> simp [globalMap, writableWhileBusy, busyWritable, h]

/-- The model's list of the targets and that of R212 agree on every location of the bus. -/
theorem writable_iff_busyWritable {s : State} {a : Nat} {l : Loc} (hl : decodeAddr a = some l) :
    writableWhileBusy s l = true ↔ busyWritable s a = true := by
  refine ⟨fun hw => ?_, writable_of_busyWritable hl⟩
  rcases writable_globalOrWavetable hl hw with hmem | ⟨bank, i, rfl, hlo, hhi⟩
  · exact globalMap_busyWritable s _ hmem hw
  · have hbank : bank = !s.activeBank := by simpa [writableWhileBusy, Bool.eq_not] using hw
    subst hbank
    cases h : s.activeBank <;> simp_all [busyWritable, wtAddr]

theorem decodeAddr_cmd {a : Nat} (h : decodeAddr a = some .cmd) : a = 0x018 := by
  have only : ∀ p ∈ globalMap, p.2 = .cmd → p.1 = 0x018 := by decide
  rcases writable_globalOrWavetable (s := State.reset) h rfl with hmem | ⟨_, _, hl, _⟩
  · exact only _ hmem rfl
  · cases hl

/-! ### A write to a listed target -/

/-- A write to a listed target other than CMD writes an interrupt or handoff register or RAM (R212). -/
theorem storeLoc_writable_frame {s : State} {l : Loc} (x : Word) (hw : writableWhileBusy s l = true)
    (hc : l ≠ .cmd) : storeLoc l x s = .next (writeLoc s x l) ∧ ∃ q e r k b₀ b₁ m, writeLoc s x l =
      { s with irqStatus := q, irqEnable := e, swapReq := r, wtLock := k, wtBlen0 := b₀, wtBlen1 := b₁, ram := m } := by
  cases l
  case cmd => exact absurd rfl hc
  case irqStatus | irqEnable | wtCtrl | wtLock | wt => exact ⟨rfl, _, _, _, _, _, _, _, rfl⟩
  case wtBlen bank => cases bank <;> exact ⟨rfl, _, _, _, _, _, _, _, rfl⟩
  all_goals cases hw

/-- Settles O12: a mapped address has one location, and it is listed exactly where R212 lists the address. -/
theorem busyWritesReachOnlyListedTargets : Obligations.BusyWritesReachOnlyListedTargets := by
  unfold Obligations.BusyWritesReachOnlyListedTargets
  intro s a x hb h4 hmapped
  obtain ⟨l, hl⟩ := decodeAddr_eq_some h4 hmapped
  constructor
  · intro hlisted
    refine busWrite_refused x s h4 hl hb ?_
    rw [← Bool.not_eq_true, writable_iff_busyWritable hl, hlisted]
    exact Bool.false_ne_true
  · intro hlisted hcmd
    have hw : writableWhileBusy s l = true := (writable_iff_busyWritable hl).2 hlisted
    have hne : l ≠ .cmd := fun h => hcmd (BitVec.eq_of_toNat_eq (decodeAddr_cmd (h ▸ hl)))
    obtain ⟨hstore, q, e, r, k, b₀, b₁, m, hframe⟩ := storeLoc_writable_frame x hw hne
    rw [busWrite_mapped x s h4 hl (.inr hw), hstore, hframe]
    exact ⟨_, rfl, hb, rfl, rfl, rfl, rfl⟩

end Sys2Proof.Proofs
end

section
/-! SUPPORT. RAM on the bus (20_memory.md R205, R244; 10_state.md R135): every word of the RAMs is a location that reads
and writes the four bytes at its address. Settles O16. -/

namespace Sys2Proof.Proofs

-- One proof after another, as in the tests: proofs checked at once would hold too many threads.
set_option Elab.async false

open Sys2Proof.Machine Sys2Proof.Config Sys2Proof.Safety

/-- The location `l` is the RAM word at byte address `a`. -/
structure IsRamWord (a : Nat) (l : Loc) : Prop where
  plain : plain l = true
  read : ∀ s, readLoc s l = ramWord s a
  write : ∀ s x, writeLoc s x l = setRamWord a x s

theorem midiQueue_isRamWord {a : Nat} (j : Fin EVQ_CAP) (hi : Bool)
    (ha : a = queueAddr .midi j.val + if hi then 4 else 0) : IsRamWord a (.midiQueue j hi) where
  plain := rfl
  read _ := by subst ha; cases hi <;> rfl
  write _ _ := by subst ha; rfl

theorem atmQueue_isRamWord {a : Nat} (j : Fin EVQ_CAP) (hi : Bool)
    (ha : a = queueAddr .automation j.val + if hi then 4 else 0) : IsRamWord a (.atmQueue j hi) where
  plain := rfl
  read _ := by subst ha; cases hi <;> rfl
  write _ _ := by subst ha; rfl

theorem out_isRamWord {a : Nat} (i : Fin MAX_BLOCK) (ha : a = outAddr i.val) : IsRamWord a (.out i) := by
  subst ha
  exact ⟨rfl, fun _ => rfl, fun _ _ => rfl⟩

theorem wt_isRamWord {a : Nat} (bank : Bool) (i : Fin WT_LEN) (ha : a = wtAddr bank i.val) :
    IsRamWord a (.wt bank i) := by
  subst ha
  exact ⟨rfl, fun _ => rfl, fun _ _ => rfl⟩

/-- An aligned address from the base of a queue on is word0 or word1 of its entry. -/
theorem queue_split {a base : Nat} (h4 : a % 4 = 0) (hbase : base % 8 = 0) (h : base ≤ a) :
    a = base + 8 * ((a - base) / 8) + if (a - base) % 8 == 4 then 4 else 0 := by
  split <;> rename_i h8 <;> simp only [beq_iff_eq] at h8 <;> omega

theorem element_of_lt {n i : Nat} (f : Fin n → Loc) (h : i < n) : element n i f = some (f ⟨i, h⟩) := dif_pos h

/-- Every word of the RAMs is a RAM location (R135). -/
theorem decodeAddr_ram {a : Nat} (h4 : a % 4 = 0) (h : ramMapped a = true) :
    ∃ l, decodeAddr a = some l ∧ IsRamWord a l := by
  rw [ramMapped_iff] at h
  refine decodeAddr_windows (P := fun o => ∃ l, o = some l ∧ IsRamWord a l) a ?global ?voiceFree ?gap ?patch ?cc
    ?depth ?midiQueue ?atmQueue ?out ?wt ?voice
  case midiQueue =>
    intro hlo _
    have hj : (a - 0x2000) / 8 < EVQ_CAP := show _ < 512 by omega
    exact ⟨_, element_of_lt _ hj, midiQueue_isRamWord ⟨_, hj⟩ _ (queue_split h4 (by decide) hlo)⟩
  case atmQueue =>
    intro hlo _
    have hj : (a - 0x3000) / 8 < EVQ_CAP := show _ < 512 by omega
    exact ⟨_, element_of_lt _ hj, atmQueue_isRamWord ⟨_, hj⟩ _ (queue_split h4 (by decide) hlo)⟩
  case out =>
    intro hlo _
    have hi : (a - 0x4000) / 4 < MAX_BLOCK := show _ < 4096 by omega
    exact ⟨_, element_of_lt _ hi, out_isRamWord ⟨_, hi⟩ (show a = 0x4000 + 4 * ((a - 0x4000) / 4) by omega)⟩
  case wt =>
    intro bank hlo hhi
    have hbase : wtAddr bank 0 = 0x8000 ∨ wtAddr bank 0 = 0xC000 := by cases bank <;> decide
    have hi : (a - wtAddr bank 0) / 4 < WT_LEN := show _ < 1024 by omega
    have haddr : a = wtAddr bank 0 + 4 * ((a - wtAddr bank 0) / 4) := by omega
    exact ⟨_, element_of_lt _ hi, wt_isRamWord bank ⟨_, hi⟩ haddr⟩
  all_goals omega

theorem busRead_ram {b : Word} {l : Loc} (s : State) (h4 : b.toNat % 4 = 0) (hl : decodeAddr b.toNat = some l)
    (hram : IsRamWord b.toNat l) : (busRead b s).busData = ramWord s b.toNat := by
  rw [busRead_mapped s h4 hl, readEffect_plain s hram.plain, setBusData_busData, hram.read]

/-- Settles O16: an access of a RAM address is one of its four bytes, and those of two words do not overlap. -/
theorem ramReadsReturnTheLastWrite : Obligations.RamReadsReturnTheLastWrite := by
  unfold Obligations.RamReadsReturnTheLastWrite
  intro s t a x hidle ha hmapped hwrite
  obtain ⟨l, hl, hram⟩ := decodeAddr_ram ha hmapped
  obtain rfl : setRamWord a.toNat x s = t := by
    rw [busWrite_mapped x s ha hl (.inl hidle), storeLoc_plain x s hram.plain, hram.write] at hwrite
    exact Host.Outcome.next.inj hwrite
  refine ⟨?_, fun b hb hbmapped hne => ?_, rfl⟩
  · rw [busRead_ram _ ha hl hram, ramWord_setRamWord_same]
  · obtain ⟨k, hk, hkram⟩ := decodeAddr_ram hb hbmapped
    have hne : b.toNat ≠ a.toNat := fun h => hne (BitVec.eq_of_toNat_eq h)
    rw [busRead_ram _ hb hk hkram, busRead_ram _ hb hk hkram, ramWord_setRamWord_other]
    omega

end Sys2Proof.Proofs
end

section
/-! SUPPORT. What only bus writes and the scheduler write (30_encoding.md R314, 20_memory.md R250): no instruction writes
an operand, a wavetable or a length register, or RAM. With it, what a bus access and what one sample can change. -/

namespace Sys2Proof.Proofs

-- One proof after another, as in the tests: proofs checked at once would hold too many threads.
set_option Elab.async false

open Sys2Proof.Machine Sys2Proof.Config Sys2Proof.Safety

/-! ### The host's part of the state -/

/-- The fields no instruction writes (R314). -/
structure HostPart where
  arg : Vector Word 4
  irqEnable : BitVec 3
  sampleRate : F32
  blockLen : Word
  midiCount : Word
  atmCount : Word
  activeBank : Bool
  swapReq : Bool
  wtLock : Bool
  wtBlen0 : Word
  wtBlen1 : Word
  ram : Memory
  agenda : List Turn
  epoch : Nat

/-- The host's part of a state. -/
def hostPart (s : State) : HostPart :=
  { arg := s.arg, irqEnable := s.irqEnable, sampleRate := s.sampleRate, blockLen := s.blockLen,
    midiCount := s.midiCount, atmCount := s.atmCount, activeBank := s.activeBank, swapReq := s.swapReq,
    wtLock := s.wtLock, wtBlen0 := s.wtBlen0, wtBlen1 := s.wtBlen1, ram := s.ram, agenda := s.agenda,
    epoch := s.epoch }

theorem raise_hostPart (c : Cause) (info loc : Word) (s : State) : hostPart (raise c info loc s) = hostPart s := by
  obtain ⟨_, _, _, _, _, _, _, _, h⟩ := raise_frame c info loc s
  rw [h]; rfl

theorem raiseAccess_hostPart (c : Cause) (info : Word) (s : State) :
    hostPart (raiseAccess c info s) = hostPart s := raise_hostPart c info _ s

theorem acceptVU_hostPart {units : Nat} (c : Word) (voice : BitVec 8) (unit : BitVec 4)
    {f : Fin NVOICE → Fin units → State → State} (s : State) (hf : ∀ v u, hostPart (f v u s) = hostPart s) :
    hostPart (acceptVU c voice unit units f s) = hostPart s := by
  rcases acceptVU_cases c voice unit units f s with
    ⟨-, h⟩ | ⟨-, -, h⟩ | ⟨-, -, -, h⟩ | ⟨-, -, -, -, h⟩ | ⟨-, -, hv, hu, h⟩
  · rw [h]
  · rw [h, raiseAccess_hostPart]
  · rw [h, raiseAccess_hostPart]
  · rw [h, raiseAccess_hostPart]
  · rw [h, hf]

theorem acceptG_hostPart (c : Word) {f : State → State} (s : State) (hf : hostPart (f s) = hostPart s) :
    hostPart (acceptG c f s) = hostPart s := by
  rcases acceptG_cases c f s with ⟨-, h⟩ | ⟨-, -, h⟩ | ⟨-, -, h⟩
  · rw [h]
  · rw [h, raiseAccess_hostPart]
  · rw [h, hf]

theorem runCommand_hostPart (s : State) : hostPart (runCommand s) = hostPart s := by
  unfold runCommand
  split
  · exact raise_hostPart _ _ _ s
  · rfl

theorem onVoice_hostPart (target : BitVec 16) {f : Fin NVOICE → State → State} (s : State)
    (hf : ∀ v, hostPart (f v s) = hostPart s) : hostPart (onVoice target f s) = hostPart s := by
  unfold onVoice
  split
  · exact hf _
  · rfl

theorem automationTarget_automatable {target : BitVec 16} {l : Loc} (h : automationTarget target = some l) :
    l.isAutomatable = true := by
  unfold automationTarget at h
  split at h
  · split at h
    · cases h; assumption
    · cases h
  · cases h

/-- No instruction writes the host's part of the state (R314, R250). -/
theorem exec_hostPart {i : Instr} {s t : State} (h : exec i s = .next t) : hostPart t = hostPart s := by
  cases i <;> obtain rfl := Host.Outcome.next.inj h
  case nop => rfl
  case run => exact acceptG_hostPart _ s (runCommand_hostPart s)
  case allNotesOff => exact acceptG_hostPart _ s rfl
  case panic =>
    split
    · rfl
    · split <;> rfl
  case errClear =>
    split
    · rfl
    · split
      · exact raiseAccess_hostPart _ _ s
      · rfl
  case evNoteOn | evNoteOff => exact onVoice_hostPart _ s fun _ => rfl
  case evControllerM => split <;> rfl
  case evPitchBend => rfl
  case evAutomation tick target value =>
    split
    next l hl =>
      obtain ⟨p, d, hframe⟩ := writeLoc_automatable_frame l value s (automationTarget_automatable hl)
      rw [hframe]; rfl
    next => rfl
  all_goals exact acceptVU_hostPart _ _ _ s fun _ _ => rfl

theorem commandWrite_hostPart {c : Word} {s t : State} (h : commandWrite c s = .next t) :
    hostPart t = hostPart s := by
  unfold commandWrite at h
  split at h
  · exact exec_hostPart h
  · obtain rfl := Host.Outcome.next.inj h
    split
    · rfl
    · exact raiseAccess_hostPart _ _ s

/-! ### Bus accesses -/

/-- Of the host's part a read changes WT_LOCK alone (R207, R232). -/
theorem busRead_hostPart (a : Word) (s : State) :
    ∃ k, hostPart (busRead a s) = { hostPart s with wtLock := k } := by
  have hfault (c : Cause) : hostPart (faultRead c a s) = { hostPart s with wtLock := s.wtLock } :=
    raiseAccess_hostPart c a s
  unfold busRead
  split
  · exact ⟨_, hfault _⟩
  · split
    · exact ⟨_, hfault _⟩
    · unfold readEffect
      split <;> exact ⟨_, rfl⟩

/-- All that a bus write can do: it changes nothing of the host's part, or it stores a word at a location that is open
to it (R202, R212). -/
theorem busWrite_cases {a x : Word} {s t : State} (h : busWrite a x s = .next t) :
    hostPart t = hostPart s ∨ ∃ l, decodeAddr a.toNat = some l ∧
      (s.busy = true → writableWhileBusy s l = true) ∧ l ≠ .cmd ∧ t = writeLoc s x l := by
  have hfault {c : Cause} (hraise : busWrite a x s = .next (raiseAccess c a s)) : hostPart t = hostPart s := by
    obtain rfl := Host.Outcome.next.inj (hraise.symm.trans h)
    exact raiseAccess_hostPart c a s
  by_cases h4 : a.toNat % 4 = 0
  case neg => exact .inl (hfault (busWrite_misaligned x s h4))
  match hl : decodeAddr a.toNat with
  | none => exact .inl (hfault (busWrite_unmapped x s h4 hl))
  | some l =>
    by_cases hs : s.busy = false ∨ writableWhileBusy s l = true
    case neg =>
      obtain ⟨hb, hw⟩ := not_or.1 hs
      exact .inl (hfault (busWrite_refused x s h4 hl (by simpa using hb) (by simpa using hw)))
    rw [busWrite_mapped x s h4 hl hs] at h
    unfold storeLoc at h
    split at h
    next => exact .inl (commandWrite_hostPart h)
    next hc =>
      exact .inr ⟨l, rfl, fun hb => hs.resolve_left (by simp [hb]), hc, (Host.Outcome.next.inj h).symm⟩

/-- No write flips the bank (R233). -/
theorem writeLoc_activeBank (s : State) (x : Word) (l : Loc) : (writeLoc s x l).activeBank = s.activeBank := by
  cases l
  case wtBlen bank => cases bank <;> rfl
  all_goals rfl

/-! ### One sample -/

/-- The scheduler's turn (R241). -/
theorem step_of_schedulerNext {s : State} (h : SchedulerNext s) : step s = scheduler (turnTaken s) := by
  unfold step turnTaken
  rcases h with h | h
  · rw [h]
    exact congrArg scheduler (show s = { s with agenda := [] } by rw [← h])
  · obtain ⟨rest, hrest⟩ := List.head?_eq_some_iff.1 h
    rw [hrest]; rfl

/-- `t` differs from `s` only in what events, a pending panic and the voices write: voices, patch registers, depths, the
CC table, PITCH_BEND, the cursors and PANIC_PEND (R250). -/
def SoundChange (s t : State) : Prop := ∃ V p d c b m a z, t =
  { s with voice := V, patch := p, depth := d, cc := c, pitchBend := b, mcur := m, acur := a, panicPend := z }

theorem SoundChange.trans {s t u : State} (h : SoundChange s t) (k : SoundChange t u) : SoundChange s u := by
  obtain ⟨_, _, _, _, _, _, _, _, rfl⟩ := h
  obtain ⟨_, _, _, _, _, _, _, _, rfl⟩ := k
  exact ⟨_, _, _, _, _, _, _, _, rfl⟩

/-- The host's part, IRQ_STATUS and BUSY are no part of it. -/
theorem SoundChange.keeps {s t : State} (h : SoundChange s t) :
    hostPart t = hostPart s ∧ t.irqStatus = s.irqStatus ∧ t.busy = s.busy := by
  obtain ⟨_, _, _, _, _, _, _, _, rfl⟩ := h
  exact ⟨rfl, rfl, rfl⟩

theorem drainQueue_soundChange (q : Queue) (s : State) : ∃ t, drainQueue q s = .next t ∧ SoundChange s t := by
  obtain ⟨_, _, _, _, _, _, _, h⟩ := drain_frame q ((queueCount q s).toNat - (cursor q s).toNat) s
  exact ⟨_, h, _, _, _, _, _, _, _, _, rfl⟩

theorem applyPanic_soundChange (s : State) : SoundChange s (applyPanic s) := by
  unfold applyPanic
  split <;> exact ⟨_, _, _, _, _, _, _, _, rfl⟩

theorem render_soundChange (s : State) : SoundChange s (render s).2 := by
  obtain ⟨V, h⟩ := render_frame s
  exact ⟨_, _, _, _, _, _, _, _, h⟩

/-- A sample is the swap check, changes by events and voices, and the sample's end (R805). -/
theorem sampleStep_cases (s : State) :
    ∃ x u, sampleStep s = .next (finishSample x u) ∧ SoundChange (swapCheck s) u := by
  obtain ⟨m, hm, hsm⟩ := drainQueue_soundChange .midi (swapCheck s)
  obtain ⟨a, ha, hma⟩ := drainQueue_soundChange .automation m
  refine ⟨(render (applyPanic a)).1, (render (applyPanic a)).2, ?_,
    ((hsm.trans hma).trans (applyPanic_soundChange a)).trans (render_soundChange _)⟩
  rw [sampleStep, hm]
  show bindNext (drainQueue .automation m) _ = _
  rw [ha]; rfl

/-- The end of a sample writes one word of OUT, and of IRQ_STATUS at most DONE (R805, R807). -/
theorem finishSample_keeps (x : F32) (s : State) :
    (∃ m, hostPart (finishSample x s) = { hostPart s with ram := m }) ∧
    (∀ a < 0x4000, ramByte (finishSample x s) a = ramByte s a) ∧
    (finishSample x s).irqStatus.getLsbD 2 = s.irqStatus.getLsbD 2 := by
  have hout (a : Nat) (ha : a < 0x4000) : ramByte (storeOut s.schedI.toNat x s) a = ramByte s a := by
    unfold storeOut
    split
    · exact ramByte_setRamWord_other s _ a x (.inl (ha.trans_le (Nat.le_add_right _ _)))
    · rfl
  have hhost : ∃ m, hostPart (storeOut s.schedI.toNat x s) = { hostPart s with ram := m } ∧
      (storeOut s.schedI.toNat x s).irqStatus = s.irqStatus := by
    unfold storeOut
    split <;> exact ⟨_, rfl, rfl⟩
  obtain ⟨m, hhost, hirq⟩ := hhost
  rw [finishSample_eq]
  split
  · exact ⟨⟨m, hhost⟩, hout, by simp⟩
  · exact ⟨⟨m, hhost⟩, hout, congrArg (·.getLsbD 2) hirq⟩

end Sys2Proof.Proofs
end

section
/-! SUPPORT. The wavetable lock and swap (20_memory.md R232, R233) and the event queues during a block (R243), from what
each turn can do to the host's part of the state. Settles O13, O15 and O52. -/

namespace Sys2Proof.Proofs

-- One proof after another, as in the tests: proofs checked at once would hold too many threads.
set_option Elab.async false

open Sys2Proof.Machine Sys2Proof.Config Sys2Proof.Safety

/-! ### What a sample can do -/

/-- All that a sample can do to the host's part and to WT_SWAPPED is what the swap check does, and one word of OUT. -/
theorem sampleStep_keeps {s t : State} (h : sampleStep s = .next t) :
    (∃ m, hostPart t = { hostPart (swapCheck s) with ram := m }) ∧
    (∀ a < 0x4000, ramByte t a = ramByte s a) ∧
    t.irqStatus.getLsbD 2 = (swapCheck s).irqStatus.getLsbD 2 := by
  obtain ⟨x, u, hu, hsound⟩ := sampleStep_cases s
  obtain rfl := Host.Outcome.next.inj (hu.symm.trans h)
  obtain ⟨hhost, hirq, -⟩ := hsound.keeps
  obtain ⟨⟨m, hm⟩, hram, hswapped⟩ := finishSample_keeps x u
  refine ⟨⟨m, by rw [hm, hhost]⟩, fun a ha => ?_, by rw [hswapped, hirq]⟩
  have hbyte : ramByte u a = ramByte s a := by
    obtain ⟨_, _, _, _, _, _, _, _, rfl⟩ := hsound
    obtain ⟨_, _, _, hswap⟩ := swapCheck_frame s
    rw [hswap]; rfl
  rw [hram a ha, hbyte]

/-! ### The lock and the swap -/

theorem swapCheck_wtLock (s : State) : (swapCheck s).wtLock = s.wtLock := by
  obtain ⟨_, _, _, h⟩ := swapCheck_frame s
  rw [h]

/-- With a request and the lock free the check swaps the banks (R233). -/
theorem swapCheck_swap {s : State} (hreq : s.swapReq = true) (hfree : s.wtLock = false) : swapCheck s =
    { s with activeBank := !s.activeBank, swapReq := false, irqStatus := irqSetSwapped s.irqStatus } :=
  if_pos (by simp [hreq, hfree])

theorem scheduler_wtLock {s t : State} (h : scheduler s = .next t) : t.wtLock = s.wtLock := by
  unfold scheduler at h
  split at h
  · obtain ⟨⟨m, hm⟩, -, -⟩ := sampleStep_keeps h
    exact (congrArg HostPart.wtLock hm).trans (swapCheck_wtLock s)
  · rw [Host.Outcome.next.inj h]

/-- Settles O13: no instruction writes the lock (R314), and no part of a sample does. -/
theorem wtLockIsATestAndSet : Obligations.WtLockIsATestAndSet := by
  unfold Obligations.WtLockIsATestAndSet
  intro s x
  refine ⟨?_, ?_, fun i t h => congrArg HostPart.wtLock (exec_hostPart h), fun t hnext h => ?_⟩
  · rw [busRead_mapped (l := .wtLock) s rfl rfl]
    cases hlock : s.wtLock <;> simp [readLoc, readEffect, setBusData, flagBit, hlock]
  · exact busWrite_mapped (l := .wtLock) x s rfl rfl (.inr rfl)
  · rw [step_of_schedulerNext hnext] at h
    exact scheduler_wtLock (s := turnTaken s) h

/-- A sample with a request and the lock free swaps the banks (R233). -/
theorem sampleStep_swap {s t : State} (hreq : s.swapReq = true) (hfree : s.wtLock = false)
    (h : sampleStep s = .next t) :
    t.activeBank = !s.activeBank ∧ t.swapReq = false ∧ t.irqStatus.getLsbD 2 = true := by
  obtain ⟨⟨m, hm⟩, -, hirq⟩ := sampleStep_keeps h
  rw [swapCheck_swap hreq hfree] at hm hirq
  exact ⟨congrArg HostPart.activeBank hm, congrArg HostPart.swapReq hm, by simp [hirq, irqSetSwapped]⟩

/-- In any other sample, and while idle, the scheduler's turn leaves bank, request and WT_SWAPPED alone (R233). -/
theorem scheduler_noSwap {s t : State} (hno : s.busy = false ∨ s.swapReq = false ∨ s.wtLock = true)
    (h : scheduler s = .next t) :
    t.activeBank = s.activeBank ∧ t.swapReq = s.swapReq ∧ t.irqStatus.getLsbD 2 = s.irqStatus.getLsbD 2 := by
  unfold scheduler at h
  split at h
  next hb =>
    obtain ⟨⟨m, hm⟩, -, hirq⟩ := sampleStep_keeps h
    rw [swapCheck_idle s (hno.resolve_left (by simp [hb]))] at hm hirq
    exact ⟨congrArg HostPart.activeBank hm, congrArg HostPart.swapReq hm, hirq⟩
  next => rw [Host.Outcome.next.inj h]; exact ⟨rfl, rfl, rfl⟩

theorem busRead_activeBank (a : Word) (s : State) : (busRead a s).activeBank = s.activeBank := by
  obtain ⟨k, h⟩ := busRead_hostPart a s
  exact congrArg HostPart.activeBank h

theorem busWrite_activeBank {a x : Word} {s t : State} (h : busWrite a x s = .next t) :
    t.activeBank = s.activeBank := by
  rcases busWrite_cases h with h | ⟨l, -, -, -, rfl⟩
  · exact congrArg HostPart.activeBank h
  · exact writeLoc_activeBank s x l

/-- Settles O15: the bank is written by the swap check alone. -/
theorem swapHappensAtASampleWithTheLockFree : Obligations.SwapHappensAtASampleWithTheLockFree := by
  unfold Obligations.SwapHappensAtASampleWithTheLockFree
  intro s t h
  refine ⟨fun hnext hb hreq hfree => ?_, fun hnext hno => ?_, fun turn rest hagenda hsample hreset => ?_⟩
  · rw [step_of_schedulerNext hnext, scheduler, if_pos (show (turnTaken s).busy = true from hb)] at h
    exact sampleStep_swap (s := turnTaken s) hreq hfree h
  · rw [step_of_schedulerNext hnext] at h
    exact scheduler_noSwap (s := turnTaken s) hno h
  · rw [step, hagenda] at h
    cases turn with
    | read a =>
      obtain rfl := Host.Outcome.next.inj h
      exact busRead_activeBank a _
    | write a x => exact busWrite_activeBank (s := { s with agenda := rest }) h
    | sample => exact absurd rfl hsample
    | reset => exact absurd rfl hreset

/-! ### The queues of a running block -/

/-- The event queues, their counts and the block length are in `t` as in `s` (R243). -/
def QueuesKept (s t : State) : Prop :=
  (∀ a, 0x2000 ≤ a → a < 0x4000 → ramByte t a = ramByte s a) ∧
  t.midiCount = s.midiCount ∧ t.atmCount = s.atmCount ∧ t.blockLen = s.blockLen

theorem queuesKept_of_hostPart {s t : State} {k : Bool} (h : hostPart t = { hostPart s with wtLock := k }) :
    QueuesKept s t := by
  have hram : t.ram = s.ram := congrArg HostPart.ram h
  have hepoch : t.epoch = s.epoch := congrArg HostPart.epoch h
  exact ⟨fun a _ _ => by rw [ramByte, ramByte, hram, hepoch], congrArg HostPart.midiCount h,
    congrArg HostPart.atmCount h, congrArg HostPart.blockLen h⟩

/-- The list of R212 names no queue word, no count and not the block length. -/
theorem writeLoc_queuesKept {s : State} {l : Loc} (x : Word) (hw : writableWhileBusy s l = true) :
    QueuesKept s (writeLoc s x l) := by
  cases l
  case cmd | irqStatus | irqEnable | wtCtrl | wtLock => exact ⟨fun _ _ _ => rfl, rfl, rfl, rfl⟩
  case wtBlen bank => cases bank <;> exact ⟨fun _ _ _ => rfl, rfl, rfl, rfl⟩
  case wt bank i =>
    have hbase : 0x4000 ≤ wtAddr bank i.val := by unfold wtAddr; split <;> omega
    exact ⟨fun a _ ha => ramByte_setRamWord_other s _ a x (.inl (ha.trans_le hbase)), rfl, rfl, rfl⟩
  all_goals cases hw

theorem busWrite_queuesKept {a x : Word} {s t : State} (hb : s.busy = true) (h : busWrite a x s = .next t) :
    QueuesKept s t := by
  rcases busWrite_cases h with h | ⟨l, -, hw, -, rfl⟩
  · exact queuesKept_of_hostPart h
  · exact writeLoc_queuesKept x (hw hb)

theorem scheduler_queuesKept {s t : State} (h : scheduler s = .next t) : QueuesKept s t := by
  unfold scheduler at h
  split at h
  · obtain ⟨⟨m, hm⟩, hram, -⟩ := sampleStep_keeps h
    obtain ⟨_, _, _, hswap⟩ := swapCheck_frame s
    rw [hswap] at hm
    exact ⟨fun a _ ha => hram a ha, congrArg HostPart.midiCount hm, congrArg HostPart.atmCount hm,
      congrArg HostPart.blockLen hm⟩
  · obtain rfl := Host.Outcome.next.inj h
    exact queuesKept_of_hostPart rfl

/-- A turn in a block that goes on keeps the queues; only the reset input, which ends it, does not. -/
theorem takeTurn_queuesKept {turn : Turn} {s t : State} (hb : s.busy = true) (h : takeTurn turn s = .next t)
    (ht : t.busy = true) : QueuesKept s t := by
  cases turn with
  | read a =>
    obtain rfl := Host.Outcome.next.inj h
    obtain ⟨k, hk⟩ := busRead_hostPart a s
    exact queuesKept_of_hostPart hk
  | write a x => exact busWrite_queuesKept hb h
  | sample => exact scheduler_queuesKept h
  | reset =>
    obtain rfl := Host.Outcome.next.inj h
    cases ht

/-- Settles O52: in a block no access but one of R212 stores a word, no instruction writes the host's part, and a sample
writes only OUT. -/
theorem queuesCannotChangeDuringABlock : Obligations.QueuesCannotChangeDuringABlock := by
  unfold Obligations.QueuesCannotChangeDuringABlock
  intro s t hb h ht
  unfold step at h
  split at h
  next => exact scheduler_queuesKept h
  next turn rest _ => exact takeTurn_queuesKept (s := { s with agenda := rest }) hb h ht

end Sys2Proof.Proofs
end

section
/-! SUPPORT. The words of an instruction (30_encoding.md R310-R315, R320, R321). The fields of a word and the word of
its fields determine each other, and the decoder's opcode map is a list of rows, each an opcode with the format and the
instruction its words stand for. Settles O1, O2 and O3. -/

namespace Sys2Proof.Proofs

-- One proof after another, as in the tests: proofs checked at once would hold too many threads.
set_option Elab.async false

open Sys2Proof.Machine Sys2Proof.Config Sys2Proof.Safety

/-! ### The fields of a command word (R310) -/

theorem voiceOf_commandWord (op v : BitVec 8) (u : BitVec 4) (m : BitVec 12) :
    voiceOf (commandWord op v u m) = v := by
  rw [voiceOf, commandWord, BitVec.extractLsb'_append_eq_of_le (by decide),
    BitVec.extractLsb'_append_eq_of_le (by decide)]
  exact BitVec.extractLsb'_append_eq_right

theorem unitOf_commandWord (op v : BitVec 8) (u : BitVec 4) (m : BitVec 12) :
    unitOf (commandWord op v u m) = u := by
  rw [unitOf, commandWord, BitVec.extractLsb'_append_eq_of_le (by decide)]
  exact BitVec.extractLsb'_append_eq_right

theorem immOf_commandWord (op v : BitVec 8) (u : BitVec 4) (m : BitVec 12) :
    immOf (commandWord op v u m) = m := BitVec.extractLsb'_append_eq_right

theorem flag_commandWord (op v : BitVec 8) (u : BitVec 4) (b : Bool) :
    (commandWord op v u (immFlag b)).getLsbD 0 = b := by
  rw [commandWord, BitVec.getLsbD_append, if_pos (by decide)]
  cases b <;> rfl

/-- A command word is the word of its fields. -/
theorem commandWord_fields (c : Word) : commandWord (opOf c) (voiceOf c) (unitOf c) (immOf c) = c := by
  have hvoice : opOf c ++ voiceOf c = c.extractLsb' 16 16 :=
    BitVec.extractLsb'_append_extractLsb'_eq_extractLsb' rfl
  have hunit : c.extractLsb' 16 16 ++ unitOf c = c.extractLsb' 12 20 :=
    BitVec.extractLsb'_append_extractLsb'_eq_extractLsb' rfl
  rw [commandWord, hvoice, hunit]
  exact BitVec.extractLsb'_append_extractLsb' (w := 20) (len := 12)

/-- A word without operands is its opcode and 24 zeros. -/
theorem commandWord_zero (op : BitVec 8) : commandWord op 0#8 0#4 0#12 = op ++ 0#24 := by
  apply BitVec.eq_of_toNat_eq
  simp only [commandWord, toNat_append_eq, BitVec.toNat_ofNat]
  omega

/-- A word whose bits [23:0] are 0 has no operands (R312). -/
theorem commandWord_of_reserved {c : Word} (h : c.extractLsb' 0 24 = 0#24) :
    commandWord (opOf c) 0#8 0#4 0#12 = c := by
  rw [commandWord_zero, ← h]
  exact BitVec.extractLsb'_append_extractLsb' (w := 8) (len := 24)

/-- An IMM field whose bits [11:1] are 0 is the flag IMM[0] (R313). -/
theorem immOf_of_reserved {c : Word} (h : c.extractLsb' 1 11 = 0#11) : immOf c = immFlag (c.getLsbD 0) := by
  have hsplit : c.extractLsb' 1 11 ++ c.extractLsb' 0 1 = immOf c :=
    BitVec.extractLsb'_append_extractLsb'_eq_extractLsb' rfl
  have hflag : c.extractLsb' 0 1 = BitVec.ofBool (c.getLsbD 0) := by
    ext k hk
    obtain rfl : k = 0 := by omega
    simp
  rw [← hsplit, h, hflag]
  cases c.getLsbD 0 <;> rfl

/-! ### The formats (R312, R313) -/

theorem formatG_eq_ok {c : Word} {f i : Instr} : formatG c f = .ok i ↔ c.extractLsb' 0 24 = 0#24 ∧ f = i := by
  unfold formatG
  split <;> simp [*]

theorem formatVU_eq_ok {c : Word} {f : BitVec 8 → BitVec 4 → Instr} {i : Instr} :
    formatVU c f = .ok i ↔ immOf c = 0#12 ∧ f (voiceOf c) (unitOf c) = i := by
  unfold formatVU
  split <;> simp [*]

theorem formatVUFlag_eq_ok {c : Word} {f : BitVec 8 → BitVec 4 → Bool → Instr} {i : Instr} :
    formatVUFlag c f = .ok i ↔ c.extractLsb' 1 11 = 0#11 ∧ f (voiceOf c) (unitOf c) (c.getLsbD 0) = i := by
  unfold formatVUFlag
  split <;> simp [*]

/-! ### The opcode map (R315) -/

/-- How the fields of a command word make an instruction: its format (R312), its number of units (R315) and whether
IMM[0] is a flag (R313). -/
inductive CommandForm
  | global (i : Instr)
  | onUnit (units : Nat) (f : BitVec 8 → BitVec 4 → Instr)
  | flagged (units : Nat) (f : BitVec 8 → BitVec 4 → Bool → Instr)

/-- The instruction with the given operands; a form ignores the ones it does not have. -/
def CommandForm.instr : CommandForm → BitVec 8 → BitVec 4 → Bool → Instr
  | .global i, _, _, _ => i
  | .onUnit _ f, v, u, _ => f v u
  | .flagged _ f, v, u, b => f v u b

/-- The word of that instruction, with 0 in every bit its format reserves. -/
def CommandForm.word (op : BitVec 8) : CommandForm → BitVec 8 → BitVec 4 → Bool → Word
  | .global _, _, _, _ => commandWord op 0#8 0#4 0#12
  | .onUnit _ _, v, u, _ => commandWord op v u 0#12
  | .flagged _ _, v, u, b => commandWord op v u (immFlag b)

/-- The instruction of a word whose opcode has the given form. -/
def CommandForm.decode : CommandForm → Word → Except Reject Instr
  | .global i, c => formatG c i
  | .onUnit _ f, c => formatVU c f
  | .flagged _ f, c => formatVUFlag c f

/-- R315, one row per command. -/
def opcodeMap : List (BitVec 8 × CommandForm) :=
  [ (0x01#8, .global .nop), (0x02#8, .global .run), (0x03#8, .global .panic),
    (0x04#8, .global .allNotesOff), (0x05#8, .global .errClear),
    (0x06#8, .onUnit 1 .noteOn), (0x07#8, .flagged 1 .noteOff),
    (0x10#8, .onUnit 6 .envRetrigger), (0x11#8, .onUnit 6 .envRelease),
    (0x12#8, .onUnit 6 .envFastRelease), (0x13#8, .onUnit 6 .envKill),
    (0x14#8, .flagged 6 .envSetTimes), (0x15#8, .onUnit 6 .envStep),
    (0x16#8, .onUnit 6 .envTriggerDelayed), (0x17#8, .onUnit 6 .envSetDelayHold),
    (0x20#8, .onUnit 2 .oscSetUnisonPitch), (0x21#8, .onUnit 2 .oscStep),
    (0x22#8, .onUnit 2 .oscReset), (0x23#8, .onUnit 2 .oscFmMix),
    (0x30#8, .onUnit 1 .fltSetCutoffBase), (0x31#8, .onUnit 1 .fltAddCutoffMod),
    (0x32#8, .onUnit 1 .fltSetCutoff), (0x33#8, .onUnit 1 .fltSetResonance),
    (0x34#8, .onUnit 1 .fltStep), (0x35#8, .onUnit 1 .fltReset),
    (0x40#8, .onUnit 1 .mmCompact), (0x41#8, .onUnit 1 .mmApply) ]

/-- The row of an opcode. -/
def findForm (op : BitVec 8) : Option (BitVec 8 × CommandForm) := opcodeMap.find? (·.1 == op)

theorem findForm_eq_some {op : BitVec 8} {r : BitVec 8 × CommandForm} (h : findForm op = some r) :
    r ∈ opcodeMap ∧ r.1 = op :=
  ⟨List.mem_of_find?_eq_some h, by simpa using List.find?_some h⟩

/-- The decoder reads a command word by the row of its opcode. -/
theorem decodeCommand_eq (c : Word) :
    decodeCommand c = (findForm (opOf c)).elim (.error .unknownOpcode) (·.2.decode c) := by
  unfold decodeCommand
  split
  case h_28 hnone =>
    have : findForm (opOf c) = none := by
      simp only [findForm, opcodeMap, List.find?_eq_none, List.forall_mem_cons, beq_iff_eq]
      simp_all [← BitVec.toNat_inj, eq_comm]
    rw [this]; rfl
  all_goals
    rename_i hop
    rw [(BitVec.toNat_eq_nat.1 hop).2]
    rfl

theorem decodeCommand_of_findForm {c : Word} {r : BitVec 8 × CommandForm} (h : findForm (opOf c) = some r) :
    decodeCommand c = r.2.decode c := by
  rw [decodeCommand_eq, h]; rfl

/-- A word decodes only by a row of the map. -/
theorem decodeCommand_ok {c : Word} {i : Instr} (h : decodeCommand c = .ok i) :
    ∃ k, findForm (opOf c) = some (opOf c, k) ∧ k.decode c = .ok i := by
  rw [decodeCommand_eq] at h
  match hr : findForm (opOf c) with
  | none => rw [hr] at h; cases h
  | some (op, k) =>
    obtain rfl : op = opOf c := (findForm_eq_some hr).2
    rw [hr] at h
    exact ⟨k, rfl, h⟩

/-- The encoder builds the word of every row. -/
theorem opcodeMap_encodes : ∀ r ∈ opcodeMap, ∀ v u b,
    portOf (r.2.instr v u b) = .cmd ∧ encode (r.2.instr v u b) = [r.2.word r.1 v u b] := by
  refine List.forall_iff_forall_mem.1 ?_
  repeat' apply And.intro
  all_goals exact fun _ _ _ => ⟨rfl, rfl⟩

/-! ### A word and its form -/

theorem opOf_word (op : BitVec 8) (k : CommandForm) (v : BitVec 8) (u : BitVec 4) (b : Bool) :
    opOf (k.word op v u b) = op := by
  cases k <;> exact Laws.EncodedWords.opOf_commandWord ..

/-- A form reads back the operands of its words. -/
theorem decode_word (op : BitVec 8) (k : CommandForm) (v : BitVec 8) (u : BitVec 4) (b : Bool) :
    k.decode (k.word op v u b) = .ok (k.instr v u b) := by
  cases k with
  | global i =>
    have hreserved : (commandWord op 0#8 0#4 0#12).extractLsb' 0 24 = 0#24 := by
      rw [commandWord_zero]; exact BitVec.extractLsb'_append_eq_right
    exact formatG_eq_ok.2 ⟨hreserved, rfl⟩
  | onUnit units f =>
    refine formatVU_eq_ok.2 ⟨immOf_commandWord .., ?_⟩
    rw [CommandForm.word, voiceOf_commandWord, unitOf_commandWord, CommandForm.instr]
  | flagged units f =>
    have hreserved : (commandWord op v u (immFlag b)).extractLsb' 1 11 = 0#11 :=
      (Laws.EncodedWords.imm_commandWord ..).trans (Laws.EncodedWords.immFlag_reserved b)
    refine formatVUFlag_eq_ok.2 ⟨hreserved, ?_⟩
    rw [CommandForm.word, voiceOf_commandWord, unitOf_commandWord, flag_commandWord, CommandForm.instr]

/-- A form reads only its words, and in them the fields of the word. -/
theorem decode_form_ok {k : CommandForm} {c : Word} {i : Instr} (h : k.decode c = .ok i) :
    k.instr (voiceOf c) (unitOf c) (c.getLsbD 0) = i ∧
    k.word (opOf c) (voiceOf c) (unitOf c) (c.getLsbD 0) = c := by
  cases k with
  | global j =>
    obtain ⟨hreserved, hi⟩ := formatG_eq_ok.1 h
    exact ⟨hi, commandWord_of_reserved hreserved⟩
  | onUnit units f =>
    obtain ⟨himm, hi⟩ := formatVU_eq_ok.1 h
    refine ⟨hi, ?_⟩
    rw [CommandForm.word, ← himm, commandWord_fields]
  | flagged units f =>
    obtain ⟨hreserved, hi⟩ := formatVUFlag_eq_ok.1 h
    refine ⟨hi, ?_⟩
    rw [CommandForm.word, ← immOf_of_reserved hreserved, commandWord_fields]

/-- CMD reads back the words of a row. -/
theorem decode_cmd_word {op : BitVec 8} {k : CommandForm} (v : BitVec 8) (u : BitVec 4) (b : Bool)
    (h : findForm op = some (op, k)) : decode .cmd [k.word op v u b] = .ok (k.instr v u b) := by
  have hform : findForm (opOf (k.word op v u b)) = some (op, k) := by rw [opOf_word, h]
  exact (decodeCommand_of_findForm hform).trans (decode_word op k v u b)

/-- A word that decodes is the word of its command. -/
theorem decodeCommand_encode {c : Word} {i : Instr} (h : decodeCommand c = .ok i) :
    portOf i = .cmd ∧ encode i = [c] := by
  obtain ⟨k, hform, hk⟩ := decodeCommand_ok h
  obtain ⟨hi, hc⟩ := decode_form_ok hk
  have henc := opcodeMap_encodes _ (findForm_eq_some hform).1 (voiceOf c) (unitOf c) (c.getLsbD 0)
  rw [hi, hc] at henc
  exact henc

/-! ### Event entries (R320, R321) -/

theorem tickOf_eventWord (ty : BitVec 4) (tick : BitVec 12) (target : BitVec 16) :
    tickOf (eventWord ty tick target) = tick := by
  rw [tickOf, eventWord, BitVec.extractLsb'_append_eq_of_le (by decide)]
  exact BitVec.extractLsb'_append_eq_right

theorem targetOf_eventWord (ty : BitVec 4) (tick : BitVec 12) (target : BitVec 16) :
    targetOf (eventWord ty tick target) = target := BitVec.extractLsb'_append_eq_right

/-- Word 0 of an entry is the word of its fields. -/
theorem eventWord_fields (w0 : Word) : eventWord (typeOf w0) (tickOf w0) (targetOf w0) = w0 := by
  have htick : typeOf w0 ++ tickOf w0 = w0.extractLsb' 16 16 :=
    BitVec.extractLsb'_append_extractLsb'_eq_extractLsb' rfl
  rw [eventWord, htick]
  exact BitVec.extractLsb'_append_extractLsb' (w := 16) (len := 16)

/-- Word 0 of an entry of a known type. -/
theorem eventWord_of_type {w0 : Word} {ty : BitVec 4} (h : (typeOf w0).toNat = ty.toNat) :
    eventWord ty (tickOf w0) (targetOf w0) = w0 := by
  rw [← BitVec.eq_of_toNat_eq h, eventWord_fields]

/-- A queue that reads entries of a type reads back the fields of its words. -/
theorem decodeEvent_eventWord (q : Queue) (ty : BitVec 4) (tick : BitVec 12) (target : BitVec 16) (value : Word)
    {f : BitVec 12 → BitVec 16 → Word → Instr}
    (h : ∀ w0, typeOf w0 = ty → decodeEvent q w0 value = .ok (f (tickOf w0) (targetOf w0) value)) :
    decode (.queue q) [eventWord ty tick target, value] = .ok (f tick target value) := by
  refine (h _ (Laws.EncodedWords.typeOf_eventWord ..)).trans ?_
  rw [tickOf_eventWord, targetOf_eventWord]

/-- An entry that decodes is the entry of its event. -/
theorem decodeEvent_ok {q : Queue} {w0 w1 : Word} {i : Instr} (h : decodeEvent q w0 w1 = .ok i) :
    portOf i = .queue q ∧ encode i = [w0, w1] := by
  unfold decodeEvent at h
  split at h
  case h_6 => cases h
  all_goals
    rename_i hty
    cases h
    exact ⟨rfl, congrArg (· :: [w1]) (eventWord_of_type hty)⟩

/-! ### The statements -/

/-- Settles O1: a command has a row of the opcode map, an event a type its queue accepts, and the decoder reads back
the fields that the encoder put together. -/
theorem encodedInstructionsDecodeBack : Obligations.EncodedInstructionsDecodeBack := by
  unfold Obligations.EncodedInstructionsDecodeBack
  intro i
  cases i with
  | nop | run | panic | allNotesOff | errClear => exact decode_cmd_word (k := .global _) 0#8 0#4 false rfl
  | noteOff v u b | envSetTimes v u b => exact decode_cmd_word (k := .flagged _ _) v u b rfl
  | evNoteOn tick target value | evNoteOff tick target value | evControllerM tick target value
  | evPitchBend tick target value | evAutomation tick target value =>
    exact decodeEvent_eventWord _ _ tick target value fun w0 hty => by simp [decodeEvent, hty]
  | _ v u => exact decode_cmd_word (k := .onUnit _ _) v u false rfl

/-- Settles O2: what decodes is a command of one word or an event of two. -/
theorem decodedWordsAreTheEncodedWords : Obligations.DecodedWordsAreTheEncodedWords := by
  unfold Obligations.DecodedWordsAreTheEncodedWords
  intro p ws i h
  unfold decode at h
  split at h
  next => exact decodeCommand_encode h
  next => exact decodeEvent_ok h
  next => cases h

/-- Settles O3: each of these words is what the encoder writes for its instruction. -/
theorem handWrittenWordsDecode : Obligations.HandWrittenWordsDecode := by
  unfold Obligations.HandWrittenWordsDecode
  have back := encodedInstructionsDecodeBack
  exact ⟨back (.noteOff 0#8 0#4 true), back (.envSetTimes 0#8 5#4 true), back (.oscStep 15#8 1#4),
    back (.fltStep 2#8 0#4), back (.mmCompact 3#8 0#4), back (.evNoteOn 0#12 0#16 0x7F45#32),
    back (.evNoteOff 4095#12 15#16 1#32), back (.evAutomation 3#12 0xA1#16 0x42700000#32)⟩

end Sys2Proof.Proofs
end

section
/-! SUPPORT. A word written to CMD (30_encoding.md R301, R302, R312-R316; 60_exceptions.md R916): the checks it
passes in their order, what an accepted command cannot write, and what the fault state discards. Settles O7, O53, O4 and O8. -/

namespace Sys2Proof.Proofs

-- One proof after another, as in the tests: proofs checked at once would hold too many threads.
set_option Elab.async false

open Sys2Proof.Machine Sys2Proof.Config Sys2Proof.Safety

/-! ### The write -/

/-- A write to CMD reaches the command decoder in every state (R212, R301). -/
theorem step_commandWrite {s : State} {c : Word} {rest : List Turn} (h : s.agenda = .write 0x018#32 c :: rest) :
    step s = commandWrite c { s with agenda := rest } := by
  unfold step
  rw [h]
  exact busWrite_mapped (l := .cmd) c _ (by decide) rfl (.inr rfl)

theorem commandWrite_ok {c : Word} {i : Instr} (s : State) (h : decodeCommand c = .ok i) :
    commandWrite c s = exec i s := by
  rw [commandWrite, h]

theorem commandWrite_error {c : Word} {e : Reject} (s : State) (h : decodeCommand c = .error e) :
    commandWrite c s = .next (if s.fault then s else raiseAccess .illegalCommand c s) := by
  rw [commandWrite, h]

/-- The word a decoded command reports in its faults is the word it was decoded from (R901). -/
theorem encodeHead_of_decodeCommand {c : Word} {i : Instr} (h : decodeCommand c = .ok i) : encodeHead i = c := by
  rw [encodeHead, (decodeCommand_encode h).2]; rfl

/-- Settles O4: the write reaches the decoder, which runs what it decodes. -/
theorem stepRunsTheDecodedCommand : Obligations.StepRunsTheDecodedCommand := by
  unfold Obligations.StepRunsTheDecodedCommand
  intro s c rest i hc hi
  rw [step_commandWrite hc, commandWrite_ok _ hi]

/-! ### The fault state (R302) -/

theorem acceptVU_faulted (c : Word) (voice : BitVec 8) (unit : BitVec 4) (units : Nat)
    (f : Fin NVOICE → Fin units → State → State) {s : State} (h : s.fault = true) :
    acceptVU c voice unit units f s = s := if_pos h

theorem acceptG_faulted (c : Word) (f : State → State) {s : State} (h : s.fault = true) : acceptG c f s = s :=
  if_pos h

/-- In the fault state a command other than ERR_CLEAR has no effect. -/
theorem exec_faulted {i : Instr} {s : State} (hi : portOf i = .cmd) (hf : s.fault = true) :
    exec i s = .next (if i = .errClear then clearFault s else s) := by
  cases i with
  | nop => rfl
  | errClear => exact congrArg _ (if_pos hf)
  | panic => exact congrArg _ (if_pos hf)
  | run | allNotesOff => exact congrArg _ (acceptG_faulted _ _ hf)
  | evNoteOn | evNoteOff | evControllerM | evPitchBend | evAutomation => cases hi
  | _ => exact congrArg _ (acceptVU_faulted _ _ _ _ _ hf)

/-- ERR_CLEAR has one word. -/
theorem eq_errClear_iff {c : Word} {i : Instr} (h : decodeCommand c = .ok i) :
    i = .errClear ↔ c = 0x05000000#32 := by
  constructor
  · rintro rfl
    exact (encodeHead_of_decodeCommand h).symm
  · rintro rfl
    exact (Except.ok.inj h).symm

/-- Settles O8: a word that is no instruction is discarded, and so is every command but ERR_CLEAR. -/
theorem faultStateDiscardsCommands : Obligations.FaultStateDiscardsCommands := by
  unfold Obligations.FaultStateDiscardsCommands
  intro s c rest hc hf
  have hf' : ({ s with agenda := rest } : State).fault = true := hf
  rw [step_commandWrite hc]
  match hd : decodeCommand c with
  | .error e =>
    have hne : c ≠ 0x05000000#32 := by rintro rfl; cases hd
    rw [commandWrite_error _ hd, if_pos hf', if_neg hne]
  | .ok i =>
    rw [commandWrite_ok _ hd, exec_faulted (decodeCommand_encode hd).1 hf']
    simp only [eq_errClear_iff hd]
    rfl

/-! ### The checks of a word (R312, R315) -/

/-- The row of R315 for an opcode and its form. -/
def CommandForm.row (op : BitVec 8) : CommandForm → CommandRow
  | .global _ => ⟨op.toNat, false, 0, 0⟩
  | .onUnit units _ => ⟨op.toNat, true, units, 0⟩
  | .flagged units _ => ⟨op.toNat, true, units, 1⟩

/-- The transcription of R315 has the rows of the decoder's map. -/
theorem commandTable_eq : commandTable = opcodeMap.map fun r => r.2.row r.1 := rfl

theorem CommandForm.row_op (op : BitVec 8) (k : CommandForm) : (k.row op).op = op.toNat := by cases k <;> rfl

theorem find_commandTable (c : Word) :
    commandTable.find? (fun r => r.op == c.toNat / 2 ^ 24) = (findForm (opOf c)).map fun r => r.2.row r.1 := by
  have hop : (opOf c).toNat = c.toNat / 2 ^ 24 := by
    rw [opOf, toNat_extractLsb', bits]
    omega
  rw [commandTable_eq, List.find?_map, findForm]
  congr 2
  funext r
  simp only [Function.comp, CommandForm.row_op, ← hop]
  rw [Bool.eq_iff_iff]
  simp [BitVec.toNat_inj]

/-- A 12-bit field has no bit but bit 0 exactly where its half is 0. -/
theorem and_flag_mask_eq_zero_iff {m : Nat} (h : m < 2 ^ 12) : m &&& 0xFFE = 0 ↔ m / 2 = 0 := by
  have hdiv : (m &&& 0xFFE) / 2 = m / 2 := by
    rw [Nat.and_div_two]
    exact (Nat.and_two_pow_sub_one_eq_mod _ 11).trans (Nat.mod_eq_of_lt (by omega))
  have hmod : (m &&& 0xFFE) % 2 = 0 := by simp [Nat.and_mod_two_pow (n := 1)]
  omega

/-- A word has a reserved bit exactly where its format does not read it. -/
theorem reservedBits_eq_zero_iff (op : BitVec 8) (k : CommandForm) (c : Word) :
    reservedBits (k.row op) c.toNat = 0 ↔ ∃ i, k.decode c = .ok i := by
  cases k with
  | global i =>
    have : c.toNat % 2 ^ 24 = 0 ↔ c.extractLsb' 0 24 = 0#24 := by
      rw [← BitVec.toNat_inj, toNat_extractLsb']; simp [bits]
    simpa [CommandForm.decode, formatG_eq_ok, reservedBits, CommandForm.row] using this
  | onUnit units f =>
    have : c.toNat % 2 ^ 12 &&& 0xFFF = 0 ↔ immOf c = 0#12 := by
      rw [← BitVec.toNat_inj, immOf, toNat_extractLsb', Nat.and_two_pow_sub_one_eq_mod _ 12]; simp [bits]
    simpa [CommandForm.decode, formatVU_eq_ok, reservedBits, CommandForm.row] using this
  | flagged units f =>
    have : c.toNat % 2 ^ 12 &&& 0xFFE = 0 ↔ c.extractLsb' 1 11 = 0#11 := by
      rw [← BitVec.toNat_inj, toNat_extractLsb', and_flag_mask_eq_zero_iff (Nat.mod_lt _ (by decide)), bits]
      simp; omega
    simpa [CommandForm.decode, formatVUFlag_eq_ok, reservedBits, CommandForm.row] using this

/-! ### The checks of a decoded command (R301 steps 4 to 6) -/

/-- What is reported to a command without operands. -/
def globalFault (busy : Bool) (op : BitVec 8) : Option Cause :=
  if busy = true ∧ op ≠ 0x01#8 ∧ op ≠ 0x03#8 then some .cmdBusy else none

/-- What is reported to a command on one of `units` units. -/
def unitFault (busy : Bool) (voice : BitVec 8) (unit : BitVec 4) (units : Nat) : Option Cause :=
  if busy = true then some .cmdBusy
  else if NVOICE ≤ voice.toNat then some .badVoice
  else if units ≤ unit.toNat then some .badUnit
  else none

/-- What is reported to a word whose reserved bits are 0. -/
def CommandForm.acceptFault (busy : Bool) (c : Word) : CommandForm → Option Cause
  | .global _ => globalFault busy (opOf c)
  | .onUnit units _ | .flagged units _ => unitFault busy (voiceOf c) (unitOf c) units

/-- A word that is no instruction has no row or a reserved bit. -/
theorem commandFault_of_error (busy : Bool) {c : Word} {e : Reject} (h : decodeCommand c = .error e) :
    commandFault busy c.toNat = some .illegalCommand := by
  rw [commandFault, find_commandTable]
  match hform : findForm (opOf c) with
  | none => rfl
  | some (op, k) =>
    rw [decodeCommand_of_findForm hform] at h
    refine if_pos fun h0 => ?_
    obtain ⟨i, hi⟩ := (reservedBits_eq_zero_iff op k c).1 h0
    cases h.symm.trans hi

/-- The commands that run while a block runs have no operands (R301 step 4). -/
theorem op_of_vu_row : ∀ r ∈ commandTable, r.vu = true → r.op ≠ 0x01 ∧ r.op ≠ 0x03 := by decide

/-- A word that is an instruction has its row's checks left. -/
theorem commandFault_of_ok (busy : Bool) {c : Word} {k : CommandForm} {i : Instr}
    (hform : findForm (opOf c) = some (opOf c, k)) (hk : k.decode c = .ok i) :
    commandFault busy c.toNat = k.acceptFault busy c := by
  have h0 : reservedBits (k.row (opOf c)) c.toNat = 0 := (reservedBits_eq_zero_iff _ k c).2 ⟨i, hk⟩
  have hrow : k.row (opOf c) ∈ commandTable := by
    rw [commandTable_eq]
    exact List.mem_map_of_mem (f := fun r => r.2.row r.1) (findForm_eq_some hform).1
  have hvu := op_of_vu_row _ hrow
  have hvoice : (voiceOf c).toNat = c.toNat / 2 ^ 16 % 2 ^ 8 := toNat_extractLsb' c 16 8
  have hunit : (unitOf c).toNat = c.toNat / 2 ^ 12 % 2 ^ 4 := toNat_extractLsb' c 12 4
  rw [commandFault, find_commandTable, hform]
  refine (if_neg (not_not.2 h0)).trans ?_
  cases k with
  | global j => simp [CommandForm.row, CommandForm.acceptFault, globalFault, ← BitVec.toNat_inj]
  | onUnit units f | flagged units f =>
    obtain ⟨hnop, hpanic⟩ := hvu rfl
    simp only [CommandForm.row] at hnop hpanic
    simp [CommandForm.row, CommandForm.acceptFault, unitFault, hvoice, hunit, hnop, hpanic]

/-! ### What the commands do with their checks -/

/-- A command without operands: but for NOP and PANIC, whose opcodes are 0x01 and 0x03, a running block refuses it. -/
structure IsGlobal (op : BitVec 8) (i : Instr) : Prop where
  wellFormed : i.wellFormed = true
  busy : op ≠ 0x01#8 → op ≠ 0x03#8 → ∀ s : State, s.fault = false → s.busy = true →
    exec i s = .next (raiseAccess .cmdBusy (encodeHead i) s)

/-- A command on one of `units` units of a voice runs through the acceptance checks. -/
structure IsOnUnit (units : Nat) (voice : BitVec 8) (unit : BitVec 4) (i : Instr) : Prop where
  wellFormed : i.wellFormed = unitInRange voice unit units
  accepted : ∃ f : Fin NVOICE → Fin units → State → State,
    ∀ s, exec i s = .next (acceptVU (encodeHead i) voice unit units f s)

/-- An instruction of a form, on the given unit of the given voice if it has one. -/
def CommandForm.Runs (op : BitVec 8) (voice : BitVec 8) (unit : BitVec 4) (i : Instr) : CommandForm → Prop
  | .global _ => IsGlobal op i
  | .onUnit units _ | .flagged units _ => IsOnUnit units voice unit i

theorem acceptG_busy (c : Word) (f : State → State) {s : State} (hf : s.fault = false) (hb : s.busy = true) :
    acceptG c f s = raiseAccess .cmdBusy c s := by
  simp [acceptG, hf, hb]

theorem run_isGlobal : IsGlobal 0x02#8 .run :=
  ⟨rfl, fun _ _ _ hf hb => congrArg _ (acceptG_busy _ _ hf hb)⟩

theorem allNotesOff_isGlobal : IsGlobal 0x04#8 .allNotesOff :=
  ⟨rfl, fun _ _ _ hf hb => congrArg _ (acceptG_busy _ _ hf hb)⟩

theorem errClear_isGlobal : IsGlobal 0x05#8 .errClear :=
  ⟨rfl, fun _ _ s hf hb => by simp [exec, execErrClear, hf, hb]⟩

/-- The instructions of every row run as its form says. -/
theorem opcodeMap_runs : ∀ r ∈ opcodeMap, ∀ v u b, r.2.Runs r.1 v u (r.2.instr v u b) := by
  refine List.forall_iff_forall_mem.1 ?_
  refine ⟨fun _ _ _ => ⟨rfl, fun h => absurd rfl h⟩, fun _ _ _ => run_isGlobal,
    fun _ _ _ => ⟨rfl, fun _ h => absurd rfl h⟩, fun _ _ _ => allNotesOff_isGlobal,
    fun _ _ _ => errClear_isGlobal, ?_⟩
  repeat' apply And.intro
  all_goals exact fun _ _ _ => ⟨rfl, _, fun _ => rfl⟩

/-! ### The checks in order -/

/-- The answer to a word for which the checks report `o`. -/
def Answered (c : Word) (s : State) : Option Cause → Prop
  | some cause => commandWrite c s = .next (raiseAccess cause c s)
  | none => ∃ i, decodeCommand c = .ok i ∧ i.wellFormed = true

theorem answered_global {c : Word} {op : BitVec 8} {i : Instr} {s : State} (hf : s.fault = false)
    (hc : decodeCommand c = .ok i) (hi : IsGlobal op i) : Answered c s (globalFault s.busy op) := by
  unfold globalFault
  split
  next h =>
    obtain ⟨hb, hnop, hpanic⟩ := h
    show commandWrite c s = _
    rw [commandWrite_ok s hc, hi.busy hnop hpanic s hf hb, encodeHead_of_decodeCommand hc]
  next => exact ⟨i, hc, hi.wellFormed⟩

theorem answered_onUnit {c : Word} {units : Nat} {voice : BitVec 8} {unit : BitVec 4} {i : Instr} {s : State}
    (hf : s.fault = false) (hc : decodeCommand c = .ok i) (hi : IsOnUnit units voice unit i) :
    Answered c s (unitFault s.busy voice unit units) := by
  obtain ⟨f, hexec⟩ := hi.accepted
  have hrun : commandWrite c s = .next (acceptVU c voice unit units f s) := by
    rw [commandWrite_ok s hc, hexec, encodeHead_of_decodeCommand hc]
  rcases acceptVU_cases c voice unit units f s with
    ⟨h, -⟩ | ⟨-, hb, h⟩ | ⟨-, hb, hv, h⟩ | ⟨-, hb, hv, hu, h⟩ | ⟨-, hb, hv, hu, h⟩
  · rw [hf] at h; cases h
  · rw [unitFault, if_pos hb]; exact hrun.trans (congrArg _ h)
  · rw [unitFault, if_neg (by simp [hb]), if_pos hv]; exact hrun.trans (congrArg _ h)
  · rw [unitFault, if_neg (by simp [hb]), if_neg (by omega), if_pos hu]; exact hrun.trans (congrArg _ h)
  · rw [unitFault, if_neg (by simp [hb]), if_neg (by omega), if_neg (by omega)]
    exact ⟨i, hc, by simp [hi.wellFormed, unitInRange, hv, hu]⟩

/-- The checks of a word outside the fault state, in the order of R301. -/
theorem commandWrite_answered (c : Word) {s : State} (hf : s.fault = false) :
    Answered c s (commandFault s.busy c.toNat) := by
  match hc : decodeCommand c with
  | .error e =>
    rw [commandFault_of_error s.busy hc]
    exact (commandWrite_error s hc).trans (by simp [hf])
  | .ok i =>
    obtain ⟨k, hform, hk⟩ := decodeCommand_ok hc
    have hruns := opcodeMap_runs _ (findForm_eq_some hform).1 (voiceOf c) (unitOf c) (c.getLsbD 0)
    rw [(decode_form_ok hk).1] at hruns
    rw [commandFault_of_ok s.busy hform hk]
    cases k with
    | global j => exact answered_global hf hc hruns
    | onUnit units f | flagged units f => exact answered_onUnit hf hc hruns

/-- Settles O7: the decoder makes the checks of the word, and the decoded command the checks of its fields. -/
theorem commandChecksRunInOrder : Obligations.CommandChecksRunInOrder := by
  unfold Obligations.CommandChecksRunInOrder
  intro s c rest hc hf
  have hanswer : Answered c { s with agenda := rest } (commandFault s.busy c.toNat) := commandWrite_answered c hf
  rw [step_commandWrite hc]
  constructor
  · intro cause hcause
    rw [hcause] at hanswer
    exact hanswer
  · intro hnone
    rw [hnone] at hanswer
    obtain ⟨i, hi, hwf⟩ := hanswer
    exact ⟨i, hi, hwf, commandWrite_ok _ hi⟩

/-! ### What no instruction writes (R314, R250) -/

/-- Taking a fault ends the block (R914). -/
theorem raise_busy (c : Cause) (info loc : Word) (s : State) : (raise c info loc s).busy = false := by
  unfold raise abortBlock
  split
  next => rfl
  next h => exact Bool.eq_false_of_not_eq_true h

theorem acceptVU_idle {units : Nat} (c : Word) (voice : BitVec 8) (unit : BitVec 4)
    {f : Fin NVOICE → Fin units → State → State} {s : State} (hf : ∀ v u, (f v u s).busy = s.busy)
    (hs : s.busy = false) : (acceptVU c voice unit units f s).busy = false := by
  rcases acceptVU_cases c voice unit units f s with
    ⟨-, h⟩ | ⟨-, -, h⟩ | ⟨-, -, -, h⟩ | ⟨-, -, -, -, h⟩ | ⟨-, -, hv, hu, h⟩
  · rw [h, hs]
  · rw [h, raiseAccess, raise_busy]
  · rw [h, raiseAccess, raise_busy]
  · rw [h, raiseAccess, raise_busy]
  · rw [h, hf, hs]

theorem acceptG_idle (c : Word) {f : State → State} {s : State} (hf : (f s).busy = s.busy) (hs : s.busy = false) :
    (acceptG c f s).busy = false := by
  rcases acceptG_cases c f s with ⟨-, h⟩ | ⟨-, -, h⟩ | ⟨-, -, h⟩
  · rw [h, hs]
  · rw [h, raiseAccess, raise_busy]
  · rw [h, hf, hs]

theorem onVoice_busy (target : BitVec 16) {f : Fin NVOICE → State → State} {s : State}
    (hf : ∀ v, (f v s).busy = s.busy) : (onVoice target f s).busy = s.busy := by
  unfold onVoice
  split
  · exact hf _
  · rfl

/-- An idle engine stays idle but for RUN. -/
theorem exec_stays_idle {i : Instr} {s t : State} (h : exec i s = .next t) (hi : i ≠ .run) (hs : s.busy = false) :
    t.busy = false := by
  cases i <;> obtain rfl := Host.Outcome.next.inj h
  case nop | evPitchBend => exact hs
  case run => exact absurd rfl hi
  case allNotesOff => exact acceptG_idle _ rfl hs
  case panic =>
    split
    · exact hs
    · split <;> exact hs
  case errClear =>
    split
    · exact hs
    · split
      · exact raise_busy ..
      · exact hs
  case evNoteOn | evNoteOff => exact (onVoice_busy _ fun _ => rfl).trans hs
  case evControllerM => split <;> exact hs
  case evAutomation tick target value =>
    split
    next l hl =>
      obtain ⟨p, d, hframe⟩ := writeLoc_automatable_frame l value s (automationTarget_automatable hl)
      rw [hframe]; exact hs
    next => exact hs
  all_goals exact acceptVU_idle _ _ _ (fun _ _ => rfl) hs

/-- Settles O53: no instruction writes the host's part of the state, and one that is not RUN leaves an idle engine
idle. -/
theorem instructionsLeaveHostRegistersAlone : Obligations.InstructionsLeaveHostRegistersAlone := by
  unfold Obligations.InstructionsLeaveHostRegistersAlone
  intro i s t h
  have hhost := exec_hostPart h
  simp only [hostPart, HostPart.mk.injEq] at hhost
  obtain ⟨harg, hirq, hrate, hlen, hmidi, hatm, hbank, hswap, hlock, hlen0, hlen1, hram, hagenda, hepoch⟩ := hhost
  refine ⟨harg, hrate, hbank, hswap, hlock, hlen0, hlen1, hlen, hmidi, hatm, hirq, hram, hepoch, hagenda, ?_⟩
  intro hi ht
  by_contra hs
  rw [exec_stays_idle h hi (by simpa using hs)] at ht
  cases ht

end Sys2Proof.Proofs
end

section
/-! SUPPORT. The envelope commands (40_envelope.md R410-R453): an accepted command replaces one envelope, and one step
of an envelope is the action of its stage in its mode. Settles O28 to O33. -/

namespace Sys2Proof.Proofs

-- One proof after another, as in the tests: proofs checked at once would hold too many threads.
set_option Elab.async false

open Sys2Proof.Machine Sys2Proof.Config Sys2Proof.Safety

/-! ### Accepted commands -/

/-- An accepted command that updates one envelope replaces that envelope by its update (R301 step 7). -/
theorem acceptVU_modEnv (c : Word) {voice : BitVec 8} {unit : BitVec 4} (hv : voice.toNat < NVOICE)
    (hu : unit.toNat < NENV) {s : State} (hs : Accepting s) (f : State → Env → Env) :
    acceptVU c voice unit NENV (fun v e s => modEnv v e (f s) s) s =
      withEnv s ⟨voice.toNat, hv⟩ ⟨unit.toNat, hu⟩
        (f s (s.voice[(⟨voice.toNat, hv⟩ : Fin NVOICE)].env[(⟨unit.toNat, hu⟩ : Fin NENV)])) := by
  obtain ⟨hf, hb⟩ := hs
  rw [acceptVU_ok c voice unit NENV _ s hf hb hv hu, modEnv_eq_withEnv]

theorem envRelease_eq_released (E : Env) : envRelease E = released E := by
  obtain ⟨stage⟩ := E
  cases stage <;> rfl

theorem envFastRelease_eq_fastReleased (sr t : F32) (E : Env) :
    envFastRelease sr t E = fastReleased sr t E :=
  envRelease_eq_released _

/-- Settles O28: each of the three replaces the envelope. -/
theorem envTriggersAndKillSetOneEnvelope : Obligations.EnvTriggersAndKillSetOneEnvelope := by
  unfold Obligations.EnvTriggersAndKillSetOneEnvelope
  intro s voice unit hv hu hs v e E
  exact ⟨congrArg _ (acceptVU_modEnv _ hv hu hs fun _ => envRetrigger),
    congrArg _ (acceptVU_modEnv _ hv hu hs fun _ => envTriggerDelayed),
    congrArg _ (acceptVU_modEnv _ hv hu hs fun _ => envKill)⟩

/-- Settles O29: the model's test of the stage code is the list of the stages below Release. -/
theorem envReleasesMoveToRelease : Obligations.EnvReleasesMoveToRelease := by
  unfold Obligations.EnvReleasesMoveToRelease
  intro s voice unit hv hu hs v e
  rw [← envRelease_eq_released, ← envFastRelease_eq_fastReleased]
  exact ⟨congrArg _ (acceptVU_modEnv _ hv hu hs fun _ => envRelease),
    congrArg _ (acceptVU_modEnv _ hv hu hs fun s => envFastRelease s.sampleRate s.patch.fastRTime)⟩

/-- Settles O30: the update is R410's, field by field. -/
theorem envSetTimesDerivesTheIncrements : Obligations.EnvSetTimesDerivesTheIncrements := by
  unfold Obligations.EnvSetTimesDerivesTheIncrements
  intro s voice unit mode hv hu hs v e
  exact congrArg _ (acceptVU_modEnv _ hv hu hs fun s => envSetTimes s.sampleRate s.patch.envDbFloor
    s.arg[0] s.arg[1] s.arg[2] s.arg[3] mode)

/-- Settles O31: the update writes the two counts. -/
theorem envSetDelayHoldWritesTheCounts : Obligations.EnvSetDelayHoldWritesTheCounts := by
  unfold Obligations.EnvSetDelayHoldWritesTheCounts
  intro s voice unit hv hu hs v e
  exact congrArg _ (acceptVU_modEnv _ hv hu hs fun s => envSetDelayHold s.arg[0] s.arg[1])

/-! ### One step of an envelope -/

/-- The envelope a step of E[v][e] leaves in the machine (R430). -/
theorem stepEnv_env (v : Fin NVOICE) (e : Fin NENV) (s : State) :
    (stepEnv v e s).voice[v].env[e] = envStep s.patch.waitSamples s.voice[v].env[e] := by
  rw [stepEnv, modEnv, modVoice_voice_same]
  exact vmod_get_same _ _ _

/-- ENV_STEP leaves the stepped envelope E', and its output in RESULT (R430). -/
theorem exec_envStep {voice : BitVec 8} {unit : BitVec 4} (hv : voice.toNat < NVOICE)
    (hu : unit.toNat < NENV) {s : State} (hs : Accepting s) {E' : Env}
    (hE : envStep s.patch.waitSamples
      (s.voice[(⟨voice.toNat, hv⟩ : Fin NVOICE)].env[(⟨unit.toNat, hu⟩ : Fin NENV)]) = E') :
    exec (.envStep voice unit) s =
      .next (withResult (withEnv s ⟨voice.toNat, hv⟩ ⟨unit.toNat, hu⟩ E') E'.out) := by
  obtain ⟨hf, hb⟩ := hs
  refine congrArg _ ((acceptVU_ok _ voice unit NENV _ s hf hb hv hu).trans ?_)
  rw [stepEnv_env, stepEnv, modEnv_eq_withEnv, hE]
  rfl

/-! The transcribed step of the linear mode, stage by stage, as the model's actions (R431-R438). -/

theorem envCeiling_eq_atCeiling (E : Env) : envCeiling E = atCeiling E := rfl

theorem envEnterSustain_eq_atSustain (E : Env) : envEnterSustain E = atSustain E := rfl

theorem satInc_eq_incCnt (c : Word) : satInc c = incCnt c := rfl

theorem linearStep_attack (w : Word) {E : Env} (h : E.stage = .attack) : linearStep w E = envAttackLinear E := by
  simp only [linearStep, h, envAttackLinear, envCeiling_eq_atCeiling]

theorem linearStep_decay (w : Word) {E : Env} (h : E.stage = .decay) : linearStep w E = envDecayLinear E := by
  simp only [linearStep, h, envDecayLinear, envEnterSustain_eq_atSustain]

theorem linearStep_release (w : Word) {E : Env} (h : E.stage = .release) :
    linearStep w E = envReleaseLinear E := by
  simp only [linearStep, h, envReleaseLinear]

theorem linearStep_delay (w : Word) {E : Env} (h : E.stage = .delay) : linearStep w E = envDelayAction E := by
  simp only [linearStep, h, envDelayAction, satInc_eq_incCnt, BitVec.le_def]

theorem linearStep_hold (w : Word) {E : Env} (h : E.stage = .hold) : linearStep w E = envHoldAction E := by
  simp only [linearStep, h, envHoldAction, satInc_eq_incCnt, BitVec.le_def]

theorem linearStep_wait (w : Word) {E : Env} (h : E.stage = .wait) : linearStep w E = envWaitAction w E := by
  simp only [linearStep, h, envWaitAction, satInc_eq_incCnt, BitVec.le_def]

theorem linearStep_sustain (w : Word) {E : Env} (h : E.stage = .sustain) : linearStep w E = E := by
  simp only [linearStep, h]

theorem linearStep_off (w : Word) {E : Env} (h : E.stage = .off) : linearStep w E = E := by
  simp only [linearStep, h]

/-- In a stage without a dB action the mode is not looked at (R431, R433, R435, R437, R438). -/
theorem envStep_shared (w : Word) {E : Env} (h : E.stage = .delay ∨ E.stage = .hold ∨ E.stage = .sustain ∨
    E.stage = .wait ∨ E.stage = .off) : envStep w E = linearStep w E := by
  obtain h | h | h | h | h := h
  · rw [linearStep_delay w h]; simp only [envStep, h]
  · rw [linearStep_hold w h]; simp only [envStep, h]
  · rw [linearStep_sustain w h]; simp only [envStep, h]
  · rw [linearStep_wait w h]; simp only [envStep, h]
  · rw [linearStep_off w h]; simp only [envStep, h]

theorem envStep_linear (w : Word) {E : Env} (hm : E.mode = false) : envStep w E = linearStep w E := by
  cases h : E.stage
  case attack => rw [linearStep_attack w h]; simp only [envStep, h, hm, Bool.false_eq_true, if_false]
  case decay => rw [linearStep_decay w h]; simp only [envStep, h, hm, Bool.false_eq_true, if_false]
  case release => rw [linearStep_release w h]; simp only [envStep, h, hm, Bool.false_eq_true, if_false]
  all_goals exact envStep_shared w (by simp [h])

/-- Settles O32: one step of the envelope is the linear action. -/
theorem envStepTakesTheLinearAction : Obligations.EnvStepTakesTheLinearAction := by
  unfold Obligations.EnvStepTakesTheLinearAction
  intro s voice unit hv hu hs v e E E' hcase
  refine exec_envStep hv hu hs ?_
  obtain hmode | hstage := hcase
  · exact envStep_linear _ hmode
  · exact envStep_shared _ hstage

/-! ### The dB mode -/

theorem envStep_db_attack (w : Word) {E : Env} (hm : E.mode = true) (h : E.stage = .attack) :
    envStep w E = envAttackDb E := by
  simp only [envStep, h, hm, if_true]

theorem envStep_db_decay (w : Word) {E : Env} (hm : E.mode = true) (h : E.stage = .decay) :
    envStep w E = envDecayDb E := by
  simp only [envStep, h, hm, if_true]

theorem envStep_db_release (w : Word) {E : Env} (hm : E.mode = true) (h : E.stage = .release) :
    envStep w E = envReleaseDb E := by
  simp only [envStep, h, hm, if_true]

/-- The ceiling leaves Attack (R432). -/
theorem envCeiling_stage_ne (E : Env) : (envCeiling E).stage ≠ .attack := by
  unfold envCeiling
  split <;> simp

/-- Only Attack can enter the dB region from the linear one (R451-R453). -/
theorem dbLinearStep_of_ne (w : Word) {E : Env} (h : E.stage ≠ .attack) :
    dbLinearStep w E = linearStep w E :=
  if_neg fun ⟨ha, _⟩ => h ha

/-- Attack in the linear region: the ceiling, a level past the threshold, or a level below it (R451). -/
theorem envAttackDb_linear (w : Word) {E : Env} (h : E.stage = .attack) (hreg : fLe E.outDb E.dbFloor = true) :
    envAttackDb E = dbLinearStep w E := by
  rw [envAttackDb, if_pos hreg, dbLinearStep, linearStep_attack w h, envAttackLinear]
  by_cases hceil : fLe f1 (fAdd E.out E.aInc) = true
  · rw [if_pos hceil, if_pos hceil, if_neg fun ⟨_, hst, _⟩ => envCeiling_stage_ne E hst]
  · rw [if_neg hceil, if_neg hceil]
    by_cases hthr : fLe E.thr (fAdd E.out E.aInc) = true
    · rw [if_pos hthr, if_pos ⟨h, h, hthr⟩]
    · rw [if_neg hthr, if_neg fun ⟨_, _, ht⟩ => hthr ht]

/-- At or below the floor a dB-mode step is the linear one, but for the way into the dB region (R451-R453). -/
theorem envStep_db_linearRegion (w : Word) {E : Env} (hm : E.mode = true)
    (hst : E.stage = .attack ∨ E.stage = .decay ∨ E.stage = .release) (hreg : fLe E.outDb E.dbFloor = true) :
    envStep w E = dbLinearStep w E := by
  obtain h | h | h := hst
  · rw [envStep_db_attack w hm h, envAttackDb_linear w h hreg]
  · rw [envStep_db_decay w hm h, envDecayDb, if_pos hreg, dbLinearStep_of_ne w (by simp [h]), linearStep_decay w h]
  · rw [envStep_db_release w hm h, envReleaseDb, if_pos hreg, dbLinearStep_of_ne w (by simp [h]),
      linearStep_release w h]

/-- The last test of Decay finds the sustain level reached, or leaves the level (R452). -/
theorem envDecayDbEnd_decay {E : Env} (h : E.stage = .decay) :
    envDecayDbEnd E = if fLe E.out E.sLin then envEnterSustain E else E := by
  simp [envDecayDbEnd, h]

/-- Decay that enters Sustain is not tested again (R452). -/
theorem envDecayDbEnd_sustain (E : Env) : envDecayDbEnd (envEnterSustain E) = atSustain E := rfl

theorem envDbLevel_stage (d : F32) (E : Env) : (envDbLevel d E).stage = E.stage := by
  unfold envDbLevel
  split <;> rfl

/-- Decay in the dB region: the sustain level by its own value in dB, or by the test on the output (R452). -/
theorem envDecayDb_dbRegion {E : Env} (h : E.stage = .decay) (hreg : ¬ fLe E.outDb E.dbFloor = true) :
    envDecayDb E = dbRegionStep E := by
  rw [envDecayDb, if_neg hreg]
  simp only [dbRegionStep, h]
  split
  · exact envDecayDbEnd_sustain E
  · rw [envDecayDbEnd_decay ((envDbLevel_stage _ E).trans h), envDbLevel, ← h]
    split <;> rfl

/-- Above the floor a dB-mode step is the dB action of its stage (R451-R453). -/
theorem envStep_db_dbRegion (w : Word) {E : Env} (hm : E.mode = true)
    (hst : E.stage = .attack ∨ E.stage = .decay ∨ E.stage = .release) (hreg : ¬ fLe E.outDb E.dbFloor = true) :
    envStep w E = dbRegionStep E := by
  obtain h | h | h := hst
  · rw [envStep_db_attack w hm h, envAttackDb, if_neg hreg]
    simp only [dbRegionStep, h, envCeiling_eq_atCeiling]
  · rw [envStep_db_decay w hm h, envDecayDb_dbRegion h hreg]
  · rw [envStep_db_release w hm h, envReleaseDb, if_neg hreg]
    simp only [dbRegionStep, h, envDbLevel]

/-- Settles O33: the two regions are the two sides of the model's first test. -/
theorem envStepTakesTheDbAction : Obligations.EnvStepTakesTheDbAction := by
  unfold Obligations.EnvStepTakesTheDbAction
  intro s voice unit hv hu hs v e E E' hm hst
  refine exec_envStep hv hu hs ?_
  by_cases hreg : fLe E.outDb E.dbFloor = true
  · exact (envStep_db_linearRegion _ hm hst hreg).trans (if_pos hreg).symm
  · exact (envStep_db_dbRegion _ hm hst hreg).trans (if_neg hreg).symm

end Sys2Proof.Proofs
end

section
/-! SUPPORT. Binary32 sums in order (00_scope.md R18, R19): the exact value of a pattern rises with its place in the
IEEE order, rounding keeps that order and leaves a representable value as it is. So a rounded sum is compared with a
pattern by comparing exact integers. -/

namespace Sys2Proof.Proofs

-- One proof after another, as in the tests: proofs checked at once would hold too many threads.
set_option Elab.async false

open Sys2Proof.Machine Sys2Proof.Config Sys2Proof.Safety

/-! ### The value of magnitude bits -/

/-- A normal value by its exponent and fraction; a fraction of 2^23 is the least value of the next binade. -/
theorem fixMag_normal (k : Nat) {r : Nat} (h : r ≤ 2 ^ 23) :
    fixMag (2 ^ 23 * (k + 1) + r) = (2 ^ 23 + r) * 2 ^ k := by
  rw [fixMag, if_neg (by omega)]
  obtain hr | rfl := h.lt_or_eq
  · rw [show (2 ^ 23 * (k + 1) + r) % 2 ^ 23 = r by omega,
      show (2 ^ 23 * (k + 1) + r) / 2 ^ 23 - 1 = k by omega]
  · rw [show (2 ^ 23 * (k + 1) + 2 ^ 23) % 2 ^ 23 = 0 by omega,
      show (2 ^ 23 * (k + 1) + 2 ^ 23) / 2 ^ 23 - 1 = k + 1 by omega]
    ring

/-- Magnitude bits of a normal value. -/
theorem exists_normal {m : Nat} (h : 2 ^ 23 ≤ m) : ∃ k r, r < 2 ^ 23 ∧ m = 2 ^ 23 * (k + 1) + r :=
  ⟨m / 2 ^ 23 - 1, m % 2 ^ 23, Nat.mod_lt _ (by decide), by omega⟩

/-- The gap between neighbouring magnitudes is one unit in the last place of the lower one. -/
theorem fixMag_succ (m : Nat) : fixMag (m + 1) = fixMag m + 2 ^ (m / 2 ^ 23 - 1) := by
  by_cases h : m < 2 ^ 23
  · rw [show m / 2 ^ 23 - 1 = 0 by omega, fixMag, fixMag, if_pos h]
    split
    · rfl
    · obtain rfl : m = 2 ^ 23 - 1 := by omega
      rfl
  · obtain ⟨k, r, hr, rfl⟩ := exists_normal (not_lt.1 h)
    rw [Nat.add_assoc, fixMag_normal k (r := r + 1) hr, fixMag_normal k hr.le,
      show (2 ^ 23 * (k + 1) + r) / 2 ^ 23 - 1 = k by omega]
    ring

theorem fixMag_strictMono : StrictMono fixMag :=
  strictMono_nat_of_lt_succ fun m => by
    rw [fixMag_succ]
    exact Nat.lt_add_of_pos_right (Nat.two_pow_pos _)

/-- Neighbouring magnitudes up to 1.0 differ by at most 2^-24. -/
theorem fixMag_succ_le_of_le_one {m : Nat} (h : m + 1 ≤ 0x3F800000) : fixMag (m + 1) ≤ fixMag m + 2 ^ 125 := by
  rw [fixMag_succ]
  exact Nat.add_le_add_left (Nat.pow_le_pow_right (by decide) (by omega)) _

/-! ### Rounding -/

theorem roundDiv_mul (c : Nat) {d : Nat} (hd : 0 < d) : roundDiv (c * d) d = c := by
  simp [roundDiv, hd]

theorem roundDiv_le_succ (n d : Nat) : n / d ≤ roundDiv n d ∧ roundDiv n d ≤ n / d + 1 := by
  unfold roundDiv
  split
  · omega
  · split <;> omega

theorem roundDiv_mono {a b : Nat} (d : Nat) (h : a ≤ b) : roundDiv a d ≤ roundDiv b d := by
  obtain hlt | heq := (Nat.div_le_div_right (c := d) h).lt_or_eq
  · exact (roundDiv_le_succ a d).2.trans ((Nat.succ_le_of_lt hlt).trans (roundDiv_le_succ b d).1)
  · have hmod : a % d ≤ b % d := by
      have ha := Nat.div_add_mod a d
      have hb := Nat.div_add_mod b d
      rw [heq] at ha
      omega
    unfold roundDiv
    rw [heq]
    split_ifs <;> omega

/-- `n / 2^e` rounded is a significand of at most 2^24 if n is below the end of binade e. -/
theorem roundDiv_le_of_lt {n e : Nat} (h : n < 2 ^ (e + 24)) : roundDiv n (2 ^ e) ≤ 2 ^ 24 := by
  calc roundDiv n (2 ^ e) ≤ roundDiv (2 ^ 24 * 2 ^ e) (2 ^ e) :=
        roundDiv_mono _ (by rw [← pow_add, Nat.add_comm]; exact h.le)
    _ = 2 ^ 24 := roundDiv_mul _ (Nat.two_pow_pos e)

/-- `n / 2^e` rounded is a significand of at least 2^23 if n is not below the start of binade e. -/
theorem le_roundDiv_of_le {n e : Nat} (h : 2 ^ (e + 23) ≤ n) : 2 ^ 23 ≤ roundDiv n (2 ^ e) := by
  calc 2 ^ 23 = roundDiv (2 ^ 23 * 2 ^ e) (2 ^ e) := (roundDiv_mul _ (Nat.two_pow_pos e)).symm
    _ ≤ roundDiv n (2 ^ e) := roundDiv_mono _ (by rw [← pow_add, Nat.add_comm]; exact h)

theorem roundMag_one (n : Nat) :
    roundMag n 1 = min ((n.log2 - 23) * 2 ^ 23 + roundDiv n (2 ^ (n.log2 - 23))) infMag := by
  rw [roundMag, Nat.div_one, Nat.one_mul]

theorem roundMag_le (n : Nat) : roundMag n 1 ≤ infMag := min_le_right _ _

theorem log2_mono {a b : Nat} (h : a ≤ b) : a.log2 ≤ b.log2 := by
  rw [Nat.log2_eq_log_two, Nat.log2_eq_log_two]
  exact Nat.log_mono_right h

/-- Rounding keeps the order (R18): in one binade as division does, and across binades at the power of two between. -/
theorem roundMag_mono {a b : Nat} (h : a ≤ b) : roundMag a 1 ≤ roundMag b 1 := by
  rw [roundMag_one, roundMag_one]
  refine min_le_min_right _ ?_
  obtain hlt | heq := (Nat.sub_le_sub_right (log2_mono h) 23).lt_or_eq
  · have ha : roundDiv a (2 ^ (a.log2 - 23)) ≤ 2 ^ 24 :=
      roundDiv_le_of_lt (Nat.lt_log2_self.trans_le (Nat.pow_le_pow_right (by decide) (by omega)))
    have hb : 2 ^ 23 ≤ roundDiv b (2 ^ (b.log2 - 23)) := by
      refine le_roundDiv_of_le ?_
      rw [show b.log2 - 23 + 23 = b.log2 by omega]
      exact Nat.log2_self_le (by rintro rfl; simp at hlt)
    omega
  · rw [heq]
    exact Nat.add_le_add_left (roundDiv_mono _ h) _

/-- A representable value is its own rounding (R18). -/
theorem roundMag_fixMag {m : Nat} (h : m ≤ infMag) : roundMag (fixMag m) 1 = m := by
  rw [roundMag_one]
  by_cases hm : m < 2 ^ 23
  · have hlog : m.log2 - 23 = 0 := by
      have := log2_mono hm.le
      rw [Nat.log2_two_pow] at this
      omega
    have hdiv := roundDiv_mul m Nat.one_pos
    rw [Nat.mul_one] at hdiv
    rw [fixMag, if_pos hm, hlog, pow_zero, hdiv, Nat.zero_mul, Nat.zero_add, min_eq_left h]
  · obtain ⟨k, r, hr, rfl⟩ := exists_normal (not_lt.1 hm)
    have hlog : ((2 ^ 23 + r) * 2 ^ k).log2 = 23 + k := by
      refine (Nat.log2_eq_iff (by positivity)).2 ⟨?_, ?_⟩
      · rw [pow_add]; exact Nat.mul_le_mul_right _ (Nat.le_add_right _ _)
      · rw [show 23 + k + 1 = 24 + k by omega, pow_add]
        exact Nat.mul_lt_mul_of_pos_right (by omega) (Nat.two_pow_pos k)
    rw [fixMag_normal k hr.le, hlog, Nat.add_sub_cancel_left, roundDiv_mul _ (Nat.two_pow_pos k)]
    omega

/-! ### Places in the IEEE order (R19) -/

/-- The exact value, in units of 2^-149, at a place of the IEEE order. -/
def valueAt (k : Int) : Int := if k < 0 then -(fixMag k.natAbs : Int) else fixMag k.natAbs

/-- The place of the binary32 value nearest to an exact value (R18). -/
def nearestPlace (z : Int) : Int := if z < 0 then -(roundMag z.natAbs 1 : Int) else roundMag z.natAbs 1

theorem fix_eq_valueAt (x : F32) : fix x = valueAt (fOrd x) := fix_of_ord x

theorem valueAt_strictMono : StrictMono valueAt := by
  intro a b hab
  have hpos {n : Nat} (h : 0 < n) : 0 < fixMag n := fixMag_strictMono.lt_iff_lt.2 h
  unfold valueAt
  split_ifs with ha hb
  · have := fixMag_strictMono (show b.natAbs < a.natAbs by omega)
    omega
  · have := hpos (show 0 < a.natAbs by omega)
    omega
  · omega
  · have := fixMag_strictMono (show a.natAbs < b.natAbs by omega)
    omega

/-- Neighbouring places from 0 to 1.0 differ by at most 2^-24. -/
theorem valueAt_succ_le {k : Int} (h0 : 0 ≤ k) (h1 : k + 1 ≤ 0x3F800000) :
    valueAt (k + 1) ≤ valueAt k + 2 ^ 125 := by
  obtain ⟨m, rfl⟩ := Int.eq_ofNat_of_zero_le h0
  have hstep := fixMag_succ_le_of_le_one (show m + 1 ≤ 0x3F800000 by omega)
  rw [valueAt, valueAt, if_neg (by omega), if_neg (by omega), Int.natAbs_natCast,
    show ((m : Int) + 1).natAbs = m + 1 by omega]
  omega

theorem nearestPlace_mono : Monotone nearestPlace := by
  intro a b hab
  unfold nearestPlace
  split_ifs with ha hb
  · have := roundMag_mono (show b.natAbs ≤ a.natAbs by omega)
    omega
  · omega
  · omega
  · have := roundMag_mono (show a.natAbs ≤ b.natAbs by omega)
    omega

theorem nearestPlace_valueAt {k : Int} (h : k.natAbs ≤ infMag) : nearestPlace (valueAt k) = k := by
  have hround := roundMag_fixMag h
  have h0 : fixMag 0 = 0 := rfl
  unfold valueAt nearestPlace
  split_ifs with hk hv hv
  · rw [Int.natAbs_neg, Int.natAbs_natCast, hround]; omega
  · have := fixMag_strictMono (show 0 < k.natAbs by omega)
    omega
  · omega
  · rw [Int.natAbs_natCast, hround]; omega

/-! ### Sums -/

theorem isFinite_iff (x : F32) : isFinite x = true ↔ (fOrd x).natAbs < infMag := by
  rw [isFinite, decide_eq_true_eq, fMag_eq_natAbs]

theorem isFinite_not_nan {x : F32} (h : isFinite x = true) : isNaN x = false := by
  rw [isFinite, decide_eq_true_eq] at h
  rw [isNaN, decide_eq_false_iff_not]
  exact h.le.not_gt

theorem isFinite_not_inf {x : F32} (h : isFinite x = true) : isInf x = false := by
  rw [isFinite, decide_eq_true_eq] at h
  exact beq_false_of_ne h.ne

/-- Magnitude bits up to infinity's with a sign are no NaN and stand at their own place. -/
theorem fPack_place (neg : Bool) {m : Nat} (h : m ≤ infMag) :
    isNaN (fPack neg m) = false ∧ fOrd (fPack neg m) = if neg then -(m : Int) else m := by
  have hlt : m < 2 ^ 31 := lt_of_le_of_lt h (by decide)
  cases neg
  · rw [fPack_false, isNaN_false_iff, fMag_ofNat hlt, fOrd_ofNat hlt]
    exact ⟨h, rfl⟩
  · rw [isNaN_false_iff, fMag_pack_true hlt, fOrd_pack_true hlt]
    exact ⟨h, rfl⟩

/-- A sum of finite values is no NaN and stands at the place nearest to the exact sum (R18). -/
theorem fAdd_place {x y : F32} (hx : isFinite x = true) (hy : isFinite y = true) :
    isNaN (fAdd x y) = false ∧ fOrd (fAdd x y) = nearestPlace (fix x + fix y) := by
  simp only [fAdd, isFinite_not_nan hx, isFinite_not_nan hy, isFinite_not_inf hx, isFinite_not_inf hy, Bool.or_false,
    Bool.false_eq_true, if_false]
  split
  next hz =>
    obtain ⟨hnan, hord⟩ := fPack_place (fSign x && fSign y) (Nat.zero_le infMag)
    refine ⟨hnan, ?_⟩
    rw [hord, hz]
    simp [nearestPlace, show roundMag 0 1 = 0 from rfl]
  next hz =>
    obtain ⟨hnan, hord⟩ := fPack_place (decide (fix x + fix y < 0)) (roundMag_le (fix x + fix y).natAbs)
    refine ⟨hnan, ?_⟩
    rw [hord, nearestPlace]
    simp only [decide_eq_true_eq]

/-! ### Differences -/

theorem fSign_eq_msb (x : F32) : fSign x = x.msb := (BitVec.msb_eq_decide x).symm

theorem fSign_fNeg (x : F32) : fSign (fNeg x) = !fSign x := by
  rw [fSign_eq_msb, fSign_eq_msb, fNeg, BitVec.msb_xor, show (0x80000000#32).msb = true from rfl, Bool.xor_true]

theorem fMag_fNeg (x : F32) : fMag (fNeg x) = fMag x := by
  rw [fMag, fNeg, BitVec.toNat_xor, Nat.xor_mod_two_pow]
  exact Nat.xor_zero _

theorem fOrd_fNeg (x : F32) : fOrd (fNeg x) = -fOrd x := by
  rw [fOrd, fOrd, fSign_fNeg, fMag_fNeg]
  cases fSign x <;> simp

theorem fix_fNeg (x : F32) : fix (fNeg x) = -fix x := by
  rw [fix, fix, fSign_fNeg, fMag_fNeg]
  cases fSign x <;> simp

/-- A difference of finite values is no NaN and stands at the place nearest to the exact difference (R18). -/
theorem fSub_place {x y : F32} (hx : isFinite x = true) (hy : isFinite y = true) :
    isNaN (fSub x y) = false ∧ fOrd (fSub x y) = nearestPlace (fix x - fix y) := by
  have hneg : isFinite (fNeg y) = true := by rwa [isFinite, fMag_fNeg]
  have hplace := fAdd_place hx hneg
  rwa [fix_fNeg, ← sub_eq_add_neg] at hplace

/-! ### Comparisons of a sum with a pattern -/

theorem fLt_of_not_fLe {x y : F32} (hx : isNaN x = false) (hy : isNaN y = false) (h : ¬ fLe x y = true) :
    fLt y x = true := by
  rw [fLe_iff] at h
  exact (fLt_iff y x).2 ⟨hy, hx, not_le.1 fun hle => h ⟨hx, hy, hle⟩⟩

theorem fLe_of_fLt {x y : F32} (h : fLt x y = true) : fLe x y = true := by
  obtain ⟨hx, hy, hlt⟩ := (fLt_iff x y).1 h
  exact (fLe_iff x y).2 ⟨hx, hy, hlt.le⟩

theorem fLe_trans {x y z : F32} (hxy : fLe x y = true) (hyz : fLe y z = true) : fLe x z = true := by
  obtain ⟨hx, -, h₁⟩ := (fLe_iff x y).1 hxy
  obtain ⟨-, hz, h₂⟩ := (fLe_iff y z).1 hyz
  exact (fLe_iff x z).2 ⟨hx, hz, h₁.trans h₂⟩

theorem fix_le_of_fLe {x y : F32} (h : fLe x y = true) : fix x ≤ fix y := by
  obtain ⟨-, -, hle⟩ := (fLe_iff x y).1 h
  rw [fix_eq_valueAt, fix_eq_valueAt]
  exact valueAt_strictMono.monotone hle

theorem fix_lt_of_fLt {x y : F32} (h : fLt x y = true) : fix x < fix y := by
  obtain ⟨-, -, hlt⟩ := (fLt_iff x y).1 h
  rw [fix_eq_valueAt, fix_eq_valueAt]
  exact valueAt_strictMono hlt

theorem isFinite_of_inRange {lo hi x : F32} (hlo : isFinite lo = true) (hhi : isFinite hi = true)
    (h : InRange lo hi x) : isFinite x = true := by
  obtain ⟨-, -, h₁⟩ := (fLe_iff lo x).1 h.1
  obtain ⟨-, -, h₂⟩ := (fLe_iff x hi).1 h.2
  rw [isFinite_iff] at *
  omega

/-- A finite value is the rounding of its own exact value. -/
theorem nearestPlace_fix {x : F32} (h : isFinite x = true) : nearestPlace (fix x) = fOrd x := by
  rw [fix_eq_valueAt]
  exact nearestPlace_valueAt ((isFinite_iff x).1 h).le

/-- A sum is at least a finite pattern if the exact sum is. -/
theorem fLe_fAdd {x y z : F32} (hx : isFinite x = true) (hy : isFinite y = true) (hz : isFinite z = true)
    (h : fix z ≤ fix x + fix y) : fLe z (fAdd x y) = true := by
  obtain ⟨hnan, hplace⟩ := fAdd_place hx hy
  refine (fLe_iff _ _).2 ⟨isFinite_not_nan hz, hnan, ?_⟩
  rw [hplace, ← nearestPlace_fix hz]
  exact nearestPlace_mono h

/-- A difference is at most a finite pattern if the exact difference is. -/
theorem fSub_fLe {x y z : F32} (hx : isFinite x = true) (hy : isFinite y = true) (hz : isFinite z = true)
    (h : fix x - fix y ≤ fix z) : fLe (fSub x y) z = true := by
  obtain ⟨hnan, hplace⟩ := fSub_place hx hy
  refine (fLe_iff _ _).2 ⟨hnan, isFinite_not_nan hz, ?_⟩
  rw [hplace, ← nearestPlace_fix hz]
  exact nearestPlace_mono h

/-! ### Increments above the gap -/

/-- 2^-24, the gap between the values next below 1.0. -/
abbrev fGap : F32 := 0x33800000#32

theorem fix_fGap : fix fGap = 2 ^ 125 := by decide

/-- A finite increment above 2^-24 raises an output in [0, 1) strictly: the exact sum is past the next value above
(R441 (a)). -/
theorem fLt_fAdd_of_gap {x y : F32} (h0 : fLe f0 x = true) (h1 : fLt x f1 = true) (hgap : fLt fGap y = true)
    (hy : isFinite y = true) : fLt x (fAdd x y) = true := by
  have hx : isFinite x = true := isFinite_of_inRange (by decide) (by decide) ⟨h0, fLe_of_fLt h1⟩
  obtain ⟨hnan, hplace⟩ := fAdd_place hx hy
  have hlo : 0 ≤ fOrd x := ((fLe_iff _ _).1 h0).2.2
  have hhi : fOrd x < 0x3F800000 := ((fLt_iff _ _).1 h1).2.2
  have hinc : 2 ^ 125 < fix y := fix_fGap ▸ fix_lt_of_fLt hgap
  have hstep : valueAt (fOrd x + 1) ≤ fix x + fix y := by
    have := valueAt_succ_le hlo (by omega)
    rw [fix_eq_valueAt x]
    omega
  refine (fLt_iff _ _).2 ⟨isFinite_not_nan hx, hnan, ?_⟩
  calc fOrd x < fOrd x + 1 := Int.lt_succ _
    _ = nearestPlace (valueAt (fOrd x + 1)) := (nearestPlace_valueAt (by unfold infMag; omega)).symm
    _ ≤ nearestPlace (fix x + fix y) := nearestPlace_mono hstep
    _ = fOrd (fAdd x y) := hplace.symm

/-- A finite decrement above 2^-24 lowers an output in (0, 1] strictly: the exact difference is past the next value
below (R441 (d)). -/
theorem fSub_fLt_of_gap {x y : F32} (h0 : fLt f0 x = true) (h1 : fLe x f1 = true) (hgap : fLt fGap y = true)
    (hy : isFinite y = true) : fLt (fSub x y) x = true := by
  have hx : isFinite x = true := isFinite_of_inRange (by decide) (by decide) ⟨fLe_of_fLt h0, h1⟩
  obtain ⟨hnan, hplace⟩ := fSub_place hx hy
  have hlo : 0 < fOrd x := ((fLt_iff _ _).1 h0).2.2
  have hhi : fOrd x ≤ 0x3F800000 := ((fLe_iff _ _).1 h1).2.2
  have hinc : 2 ^ 125 < fix y := fix_fGap ▸ fix_lt_of_fLt hgap
  have hstep : fix x - fix y ≤ valueAt (fOrd x - 1) := by
    have := valueAt_succ_le (k := fOrd x - 1) (by omega) (by omega)
    rw [sub_add_cancel] at this
    rw [fix_eq_valueAt x]
    omega
  refine (fLt_iff _ _).2 ⟨hnan, isFinite_not_nan hx, ?_⟩
  calc fOrd (fSub x y) = nearestPlace (fix x - fix y) := hplace
    _ ≤ nearestPlace (valueAt (fOrd x - 1)) := nearestPlace_mono hstep
    _ = fOrd x - 1 := nearestPlace_valueAt (by unfold infMag; omega)
    _ < fOrd x := sub_one_lt _

/-- A positive value that is not finite is infinity. -/
theorem infinite_of_gap {y : F32} (hgap : fLt fGap y = true) (hy : ¬ isFinite y = true) :
    isInf y = true ∧ fOrd y = infMag := by
  obtain ⟨-, hnan, hlt⟩ := (fLt_iff _ _).1 hgap
  have hpos : 0x33800000 < fOrd y := hlt
  have hmag := (isNaN_false_iff y).1 hnan
  rw [isFinite_iff] at hy
  rw [isInf, beq_iff_eq, fMag_eq_natAbs]
  rw [fMag_eq_natAbs] at hmag
  unfold infMag at *
  omega

theorem fAdd_infinite {x y : F32} (hx : isFinite x = true) (hnan : isNaN y = false) (hy : isInf y = true) :
    fAdd x y = y := by
  simp [fAdd, isFinite_not_nan hx, isFinite_not_inf hx, hnan, hy]

/-- A sum below 1.0 had a finite increment. -/
theorem isFinite_of_fAdd_lt_one {x y : F32} (hx : isFinite x = true) (hgap : fLt fGap y = true)
    (h : ¬ fLe f1 (fAdd x y) = true) : isFinite y = true := by
  by_contra hy
  obtain ⟨-, hnan, -⟩ := (fLt_iff _ _).1 hgap
  obtain ⟨hinf, hord⟩ := infinite_of_gap hgap hy
  refine h ((fLe_iff _ _).2 ?_)
  rw [fAdd_infinite hx hnan hinf, hord]
  exact ⟨rfl, hnan, by decide⟩

/-- A difference above 0.0 had a finite decrement. -/
theorem isFinite_of_fSub_pos {x y : F32} (hx : isFinite x = true) (hgap : fLt fGap y = true)
    (h : ¬ fLe (fSub x y) f0 = true) : isFinite y = true := by
  by_contra hy
  obtain ⟨-, hnan, -⟩ := (fLt_iff _ _).1 hgap
  obtain ⟨hinf, hord⟩ := infinite_of_gap hgap hy
  have hnanNeg : isNaN (fNeg y) = false := by rwa [isNaN, fMag_fNeg]
  refine h ((fLe_iff _ _).2 ?_)
  rw [fSub, fAdd_infinite hx hnanNeg (by rwa [isInf, fMag_fNeg]), fOrd_fNeg, hord]
  exact ⟨hnanNeg, rfl, by decide⟩

end Sys2Proof.Proofs
end

section
/-! SUPPORT. The numerical properties of the linear mode (40_envelope.md R441): outputs stay in [0, 1], Attack rises and
Release falls, from the order of rounded sums. Settles O34 and O35. -/

namespace Sys2Proof.Proofs

-- One proof after another, as in the tests: proofs checked at once would hold too many threads.
set_option Elab.async false

open Sys2Proof.Machine Sys2Proof.Config Sys2Proof.Safety

/-! ### The range of an output (R441 (c)) -/

theorem unit_isFinite {x : F32} (h : InRange f0 f1 x) : isFinite x = true :=
  isFinite_of_inRange (by decide) (by decide) h

theorem increment_isFinite {y : F32} (h : InRange f0 fMaxFinite y) : isFinite y = true :=
  isFinite_of_inRange (by decide) (by decide) h

theorem fix_f0 : fix f0 = 0 := by decide

/-- A sum that stays below 1.0 is in the range. -/
theorem fAdd_inRange {x y : F32} (hx : InRange f0 f1 x) (hy : InRange f0 fMaxFinite y)
    (h : ¬ fLe f1 (fAdd x y) = true) : InRange f0 f1 (fAdd x y) := by
  have hxf := unit_isFinite hx
  have hyf := increment_isFinite hy
  have hx0 := fix_le_of_fLe hx.1
  have hy0 := fix_le_of_fLe hy.1
  rw [fix_f0] at hx0 hy0
  refine ⟨fLe_fAdd hxf hyf (by decide) ?_, fLe_of_fLt (fLt_of_not_fLe (by decide) (fAdd_place hxf hyf).1 h)⟩
  rw [fix_f0]
  omega

/-- A difference that stays above a level of the range is in the range. -/
theorem fSub_inRange {x y z : F32} (hx : InRange f0 f1 x) (hy : InRange f0 fMaxFinite y) (hz : InRange f0 f1 z)
    (h : ¬ fLe (fSub x y) z = true) : InRange f0 f1 (fSub x y) := by
  have hxf := unit_isFinite hx
  have hyf := increment_isFinite hy
  have hx1 := fix_le_of_fLe hx.2
  have hy0 := fix_le_of_fLe hy.1
  rw [fix_f0] at hy0
  have hgt := fLt_of_not_fLe (fSub_place hxf hyf).1 (isFinite_not_nan (unit_isFinite hz)) h
  exact ⟨fLe_trans hz.1 (fLe_of_fLt hgt), fSub_fLe hxf hyf (by decide) (by omega)⟩

theorem f0_inRange : InRange f0 f1 f0 := ⟨by decide, by decide⟩

theorem f1_inRange : InRange f0 f1 f1 := ⟨by decide, by decide⟩

theorem envAttackLinear_inRange {E : Env} (hout : InRange f0 f1 E.out) (hinc : InRange f0 fMaxFinite E.aInc) :
    InRange f0 f1 (envAttackLinear E).out := by
  unfold envAttackLinear
  split
  · exact f1_inRange
  next hceil => exact fAdd_inRange hout hinc hceil

theorem envDecayLinear_inRange {E : Env} (hout : InRange f0 f1 E.out) (hsus : InRange f0 f1 E.sLin)
    (hinc : InRange f0 fMaxFinite E.dInc) : InRange f0 f1 (envDecayLinear E).out := by
  unfold envDecayLinear
  split
  · exact hsus
  next hlevel => exact fSub_inRange hout hinc hsus hlevel

theorem envReleaseLinear_inRange {E : Env} (hout : InRange f0 f1 E.out) (hinc : InRange f0 fMaxFinite E.rInc) :
    InRange f0 f1 (envReleaseLinear E).out := by
  unfold envReleaseLinear
  split
  · exact f0_inRange
  next hend => exact fSub_inRange hout hinc f0_inRange hend

/-! The counting stages leave the output (R431, R433, R437). -/

theorem envDelayAction_out (E : Env) : (envDelayAction E).out = E.out := by
  unfold envDelayAction
  split <;> rfl

theorem envHoldAction_out (E : Env) : (envHoldAction E).out = E.out := by
  unfold envHoldAction
  split <;> rfl

theorem envWaitAction_out (w : Word) (E : Env) : (envWaitAction w E).out = E.out := by
  unfold envWaitAction
  split <;> rfl

/-- Settles O34: each stage leaves the output, sets it to a value of the range, or adds or subtracts an increment. -/
theorem linearEnvelopeStaysInUnitRange : Obligations.LinearEnvelopeStaysInUnitRange := by
  unfold Obligations.LinearEnvelopeStaysInUnitRange
  intro w E hm hout hsus ha hd hr
  rw [envStep_linear w hm]
  cases h : E.stage
  case delay => rwa [linearStep_delay w h, envDelayAction_out]
  case attack => rw [linearStep_attack w h]; exact envAttackLinear_inRange hout ha
  case hold => rwa [linearStep_hold w h, envHoldAction_out]
  case decay => rw [linearStep_decay w h]; exact envDecayLinear_inRange hout hsus hd
  case sustain => rwa [linearStep_sustain w h]
  case release => rw [linearStep_release w h]; exact envReleaseLinear_inRange hout hr
  case wait => rwa [linearStep_wait w h, envWaitAction_out]
  case off => rwa [linearStep_off w h]

/-! ### The slopes (R441 (a), (d)) -/

theorem envAttackLinear_rises {E : Env} (h : E.stage = .attack) (h0 : fLe f0 E.out = true)
    (h1 : fLt E.out f1 = true) (hgap : fLt fGap E.aInc = true) :
    fLt E.out (envAttackLinear E).out = true ∧ fLe (envAttackLinear E).out f1 = true ∧
      ((envAttackLinear E).stage ≠ .attack → (envAttackLinear E).out = f1) := by
  have hout : isFinite E.out = true := unit_isFinite ⟨h0, fLe_of_fLt h1⟩
  unfold envAttackLinear
  split
  · exact ⟨h1, f1_inRange.2, fun _ => rfl⟩
  next hceil =>
    have hinc := isFinite_of_fAdd_lt_one hout hgap hceil
    exact ⟨fLt_fAdd_of_gap h0 h1 hgap hinc,
      fLe_of_fLt (fLt_of_not_fLe (by decide) (fAdd_place hout hinc).1 hceil), fun hne => absurd h hne⟩

theorem envReleaseLinear_falls {E : Env} (h : E.stage = .release) (h0 : fLt f0 E.out = true)
    (h1 : fLe E.out f1 = true) (hgap : fLt fGap E.rInc = true) :
    fLt (envReleaseLinear E).out E.out = true ∧ fLe f0 (envReleaseLinear E).out = true ∧
      ((envReleaseLinear E).stage ≠ .release →
        (envReleaseLinear E).out = f0 ∧ (envReleaseLinear E).stage = .wait) := by
  have hout : isFinite E.out = true := unit_isFinite ⟨fLe_of_fLt h0, h1⟩
  unfold envReleaseLinear
  split
  · exact ⟨h0, f0_inRange.1, fun _ => ⟨rfl, rfl⟩⟩
  next hend =>
    have hinc := isFinite_of_fSub_pos hout hgap hend
    exact ⟨fSub_fLt_of_gap h0 h1 hgap hinc,
      fLe_of_fLt (fLt_of_not_fLe (fSub_place hout hinc).1 (by decide) hend), fun hne => absurd h hne⟩

/-- Settles O35: a finite increment above 2^-24 moves the output past its neighbour, an infinite one ends the stage. -/
theorem linearAttackRisesAndReleaseFalls : Obligations.LinearAttackRisesAndReleaseFalls := by
  unfold Obligations.LinearAttackRisesAndReleaseFalls
  intro w E hm
  rw [envStep_linear w hm]
  constructor
  · intro h h0 h1 hgap
    rw [linearStep_attack w h]
    exact envAttackLinear_rises h h0 h1 hgap
  · intro h h0 h1 hgap
    rw [linearStep_release w h]
    exact envReleaseLinear_falls h h0 h1 hgap

end Sys2Proof.Proofs
end

section
/-! SUPPORT. The lanes of an oscillator (41_oscillator.md R501, R510, R540): a command that goes over the active lanes
gives each of them a value of its own, and no lane's value depends on another lane. -/

namespace Sys2Proof.Proofs

-- One proof after another, as in the tests: proofs checked at once would hold too many threads.
set_option Elab.async false

open Sys2Proof.Machine Sys2Proof.Config Sys2Proof.Safety

/-! ### Folds over lanes -/

/-- A fold that sets elements to given values leaves those of the list set and the others alone. -/
theorem foldl_set_eq_ofFn {α : Type} {n : Nat} (g : Fin n → α) (l : List (Fin n)) (xs : Vector α n) :
    l.foldl (fun xs u => xs.set u.val (g u) u.isLt) xs =
      Vector.ofFn fun u => if u ∈ l then g u else xs[u] := by
  induction l generalizing xs with
  | nil => ext i hi; simp
  | cons u l ih =>
    rw [List.foldl_cons, ih]
    ext i hi
    by_cases hu : u.val = i
    · subst hu; simp
    · have hne : (⟨i, hi⟩ : Fin n) ≠ u := fun e => hu (congrArg Fin.val e.symm)
      simp [hu, hne]

/-- The increments of the active lanes are set, the others stay (R510, R501). -/
theorem oscSetUnisonPitch_eq (sr : F32) (n : Nat) (spread base : F32) (O : Osc) :
    oscSetUnisonPitch sr n spread base O = { O with
      inc := Vector.ofFn fun u : Fin NUNI_MAX =>
        if u.val < n then laneInc sr n spread base u.val else O.inc[u] } := by
  have fold (l : List (Fin NUNI_MAX)) (O : Osc) :
      l.foldl (fun O u => { O with inc := O.inc.set u.val (laneInc sr n spread base u.val) u.isLt }) O =
        { O with inc := l.foldl (fun xs u => xs.set u.val (laneInc sr n spread base u.val) u.isLt) O.inc } := by
    induction l generalizing O with
    | nil => rfl
    | cons u l ih => exact ih _
  unfold oscSetUnisonPitch
  have hfilter := List.foldl_filter (p := fun u : Fin NUNI_MAX => decide (u.val < n)) (l := List.finRange NUNI_MAX)
    (f := fun O u => { O with inc := O.inc.set u.val (laneInc sr n spread base u.val) u.isLt }) (init := O)
  simp only [decide_eq_true_eq] at hfilter
  rw [← hfilter, fold, foldl_set_eq_ofFn]
  simp

/-- The phase OSC_STEP gives lane `u` (R540, R550). -/
def phaseAfter (sync : Option F32) (O : Osc) (u : Fin NUNI_MAX) : F32 := sync.getD (wrapPhase (laneSum O u))

/-- The oscillator with the lanes of `l` stepped (R540). -/
def lanesStepped (sync : Option F32) (l : List (Fin NUNI_MAX)) (O : Osc) : Osc :=
  { O with
    phase := l.foldl (fun xs u => xs.set u.val (phaseAfter sync O u) u.isLt) O.phase
    wrap := if 0 ∈ l then fLe f1 (laneSum O 0) else O.wrap
    syncPh := if 0 ∈ l then phaseAfter sync O 0 else O.syncPh }

theorem lanePhase_eq_phaseAfter (sync : Option F32) (O : Osc) (u : Fin NUNI_MAX) :
    lanePhase O.phase[u] O.inc[u] O.fmIn sync = phaseAfter sync O u := by
  cases sync <;> rfl

theorem stepLane_eq (wave : F32 → F32) (sync : Option F32) (O : Osc) (acc : F32) (u : Fin NUNI_MAX) :
    stepLane wave sync O acc u = (lanesStepped sync [u] O, fAdd acc (wave (phaseAfter sync O u))) := by
  rw [stepLane, lanePhase_eq_phaseAfter]
  by_cases hu : u = 0
  · subst hu; rfl
  · have hval : u.val ≠ 0 := fun e => hu (Fin.ext e)
    simp only [lanesStepped, List.mem_singleton, if_neg hval, if_neg (Ne.symm hu)]
    rfl

/-- A lane is stepped from its own phase: another lane's step leaves its sum. -/
theorem laneSum_other (sync : Option F32) {u w : Fin NUNI_MAX} (h : w ≠ u) (O : Osc) :
    laneSum (lanesStepped sync [u] O) w = laneSum O w := by
  have hphase : (lanesStepped sync [u] O).phase[w] = O.phase[w] :=
    Vector.getElem_set_ne u.isLt w.isLt fun e => h (Fin.ext e.symm)
  rw [laneSum, hphase]; rfl

theorem phaseAfter_other (sync : Option F32) {u w : Fin NUNI_MAX} (h : w ≠ u) (O : Osc) :
    phaseAfter sync (lanesStepped sync [u] O) w = phaseAfter sync O w := by
  rw [phaseAfter, laneSum_other sync h, phaseAfter]

theorem lanesStepped_cons (sync : Option F32) {u : Fin NUNI_MAX} {l : List (Fin NUNI_MAX)} (hu : u ∉ l) (O : Osc) :
    lanesStepped sync l (lanesStepped sync [u] O) = lanesStepped sync (u :: l) O := by
  have hne : ∀ w ∈ l, w ≠ u := fun w hw e => hu (e ▸ hw)
  have hphase : (lanesStepped sync l (lanesStepped sync [u] O)).phase = (lanesStepped sync (u :: l) O).phase :=
    List.foldl_ext _ _ _ fun xs w hw => by rw [phaseAfter_other sync (hne w hw)]
  refine (Osc.mk.injEq ..).mpr ⟨rfl, ?_, ?_, rfl, hphase, rfl⟩
  all_goals
    by_cases h0 : 0 ∈ l
    · simp [laneSum_other sync (hne 0 h0), phaseAfter_other sync (hne 0 h0), h0]
    · simp [lanesStepped, h0]

/-- Each lane is stepped from its own phase: no lane reads another's. -/
theorem foldl_stepLane (wave : F32 → F32) (sync : Option F32) (l : List (Fin NUNI_MAX)) (hl : l.Nodup) (O : Osc)
    (acc : F32) : l.foldl (fun st u => stepLane wave sync st.1 st.2 u) (O, acc) =
      (lanesStepped sync l O, l.foldl (fun acc u => fAdd acc (wave (phaseAfter sync O u))) acc) := by
  induction l generalizing O acc with
  | nil => rfl
  | cons u l ih =>
    obtain ⟨hu, hl⟩ := List.nodup_cons.1 hl
    rw [List.foldl_cons, stepLane_eq, ih hl, lanesStepped_cons sync hu]
    exact congrArg _ (List.foldl_ext _ _ _ fun a w hw => by
      have hne : w ≠ u := fun e => hu (e ▸ hw)
      rw [phaseAfter_other sync hne])

/-- The lanes below n are stepped, and their waves are summed in increasing order (R540). -/
theorem stepLanes_eq (wave : F32 → F32) (sync : Option F32) (n : Nat) (O : Osc) :
    stepLanes wave sync n O =
      (lanesStepped sync ((List.finRange NUNI_MAX).filter fun u => u.val < n) O,
        ((List.finRange NUNI_MAX).filter fun u => u.val < n).foldl
          (fun acc u => fAdd acc (wave (phaseAfter sync O u))) f0) := by
  rw [← foldl_stepLane wave sync _ ((List.nodup_finRange _).filter _), List.foldl_filter]
  simp only [decide_eq_true_eq]
  rfl

end Sys2Proof.Proofs
end

section
/-! SUPPORT. The wrap of a phase (41_oscillator.md R540, R541): a phase and an effective increment below 1.0 sum to less
than 2.0 after rounding, so that one subtraction brings the phase back into [0, 1). -/

namespace Sys2Proof.Proofs

-- One proof after another, as in the tests: proofs checked at once would hold too many threads.
set_option Elab.async false

open Sys2Proof.Machine Sys2Proof.Config Sys2Proof.Safety

/-! ### One advance of a phase (R540, R541) -/

/-- A sum is at most a finite pattern if the exact sum is. -/
theorem fAdd_fLe {x y z : F32} (hx : isFinite x = true) (hy : isFinite y = true) (hz : isFinite z = true)
    (h : fix x + fix y ≤ fix z) : fLe (fAdd x y) z = true := by
  obtain ⟨hnan, hplace⟩ := fAdd_place hx hy
  refine (fLe_iff _ _).2 ⟨hnan, isFinite_not_nan hz, ?_⟩
  rw [hplace, ← nearestPlace_fix hz]
  exact nearestPlace_mono h

/-- A difference is at least a finite pattern if the exact difference is. -/
theorem fLe_fSub {x y z : F32} (hx : isFinite x = true) (hy : isFinite y = true) (hz : isFinite z = true)
    (h : fix z ≤ fix x - fix y) : fLe z (fSub x y) = true := by
  obtain ⟨hnan, hplace⟩ := fSub_place hx hy
  refine (fLe_iff _ _).2 ⟨isFinite_not_nan hz, hnan, ?_⟩
  rw [hplace, ← nearestPlace_fix hz]
  exact nearestPlace_mono h

/-- Twice INC_MAX, 2 − 2^-23: the greatest sum of a phase and an increment, and itself a binary32 value. -/
abbrev phaseSumMax : F32 := 0x3FFFFFFF#32

theorem fix_phaseSumMax : fix phaseSumMax = fix incMax + fix incMax := by decide

theorem fix_phaseSumMax_le : fix phaseSumMax - fix f1 ≤ fix incMax := by decide

/-- The sum of two values below 1.0 is at most the exact 2 − 2^-23, which no rounding exceeds. -/
theorem fAdd_inPhaseSum {x y : F32} (hx : InRange f0 incMax x) (hy : InRange f0 incMax y) :
    InRange f0 phaseSumMax (fAdd x y) := by
  have hxf : isFinite x = true := isFinite_of_inRange (by decide) (by decide) hx
  have hyf : isFinite y = true := isFinite_of_inRange (by decide) (by decide) hy
  have hx0 := fix_le_of_fLe hx.1
  have hy0 := fix_le_of_fLe hy.1
  have hx1 := fix_le_of_fLe hx.2
  have hy1 := fix_le_of_fLe hy.2
  rw [fix_f0] at hx0 hy0
  refine ⟨fLe_fAdd hxf hyf (by decide) ?_, fAdd_fLe hxf hyf (by decide) ?_⟩
  · rw [fix_f0]; omega
  · rw [fix_phaseSumMax]; omega

/-- INC_MAX is the greatest value below 1.0. -/
theorem fLe_incMax {x : F32} (h : fLt x f1 = true) : fLe x incMax = true := by
  obtain ⟨hnan, -, hlt⟩ := (fLt_iff _ _).1 h
  have hplace : fOrd f1 = fOrd incMax + 1 := by decide
  exact (fLe_iff _ _).2 ⟨hnan, by decide, by omega⟩

/-- One subtraction brings a sum below 2.0 back below 1.0 (R541). -/
theorem wrapPhase_inUnit {x : F32} (h : InRange f0 phaseSumMax x) : InRange f0 incMax (wrapPhase x) := by
  have hxf : isFinite x = true := isFinite_of_inRange (by decide) (by decide) h
  have hle := fix_le_of_fLe h.2
  have hmax := fix_phaseSumMax_le
  unfold wrapPhase
  split
  next hwrap =>
    have hge := fix_le_of_fLe hwrap
    refine ⟨fLe_fSub hxf (by decide) (by decide) ?_, fSub_fLe hxf (by decide) (by decide) ?_⟩
    · rw [fix_f0]; omega
    · omega
  next hstay => exact ⟨h.1, fLe_incMax (fLt_of_not_fLe (by decide) (isFinite_not_nan hxf) hstay)⟩

/-! ### One oscillator -/

/-- Every stored phase of one oscillator is in [0, 1) (R541). -/
def OscInUnit (O : Osc) : Prop :=
  InRange f0 incMax O.syncPh ∧ ∀ u : Fin NUNI_MAX, InRange f0 incMax O.phase[u]

/-- Every stored phase of one voice is in [0, 1) (R541). -/
def VoiceInUnit (V : Voice) : Prop := ∀ o : Fin NOSC, OscInUnit V.osc[o]

theorem phasesInUnit_iff (s : State) : PhasesInUnit s ↔ ∀ v : Fin NVOICE, VoiceInUnit s.voice[v] := Iff.rfl

/-- The effective increment is in [0, INC_MAX], whatever INC and FM_IN are, so one wrap suffices (R540, R541). -/
theorem phaseAfter_inUnit {sync : Option F32} (hsync : ∀ ph ∈ sync, InRange f0 incMax ph) {O : Osc}
    (hO : OscInUnit O) (u : Fin NUNI_MAX) : InRange f0 incMax (phaseAfter sync O u) := by
  cases sync with
  | some ph => exact hsync ph rfl
  | none => exact wrapPhase_inUnit (fAdd_inPhaseSum (hO.2 u) (clamp_inRange (by decide) _))

theorem lanesStepped_phase (sync : Option F32) (l : List (Fin NUNI_MAX)) (O : Osc) (u : Fin NUNI_MAX) :
    (lanesStepped sync l O).phase[u] = if u ∈ l then phaseAfter sync O u else O.phase[u] := by
  have hfold : (lanesStepped sync l O).phase = _ := foldl_set_eq_ofFn (phaseAfter sync O) l O.phase
  rw [hfold]
  exact Vector.getElem_ofFn u.isLt

theorem oscStep_inUnit (wave : F32 → F32) {sync : Option F32} (hsync : ∀ ph ∈ sync, InRange f0 incMax ph) (n : Nat)
    {O : Osc} (hO : OscInUnit O) : OscInUnit (oscStep wave sync n O) := by
  have hafter := phaseAfter_inUnit hsync hO
  unfold oscStep
  rw [stepLanes_eq]
  constructor
  · show InRange f0 incMax (lanesStepped sync _ O).syncPh
    unfold lanesStepped
    split
    · exact hafter 0
    · exact hO.1
  · intro u
    show InRange f0 incMax (lanesStepped sync _ O).phase[u]
    rw [lanesStepped_phase]
    split
    · exact hafter u
    · exact hO.2 u

theorem f0_inUnit : InRange f0 incMax f0 := ⟨by decide, by decide⟩

theorem oscReset_inUnit (O : Osc) : OscInUnit (oscReset O) :=
  ⟨f0_inUnit, fun u => by
    have hzero : (oscReset O).phase[u] = f0 := Vector.getElem_replicate u.isLt
    rw [hzero]; exact f0_inUnit⟩

theorem writeOsc_inUnit (x : Word) {O : Osc} (r : OscReg) (hO : OscInUnit O) : OscInUnit (writeOsc x O r) := by
  have hclamp : InRange f0 incMax (clamp x f0 incMax) := clamp_inRange (by decide) x
  cases r with
  | syncPh => exact ⟨hclamp, hO.2⟩
  | phase u => exact ⟨hO.1, forall_vmod (f := fun _ => clamp x f0 incMax) hO.2 fun _ => hclamp⟩
  | out | flags | fmIn | inc => exact hO

end Sys2Proof.Proofs
end

section
/-! SUPPORT. The phases of the voices (41_oscillator.md R541): what every operation, instruction, sample and step leaves
in them. Settles O58. -/

namespace Sys2Proof.Proofs

-- One proof after another, as in the tests: proofs checked at once would hold too many threads.
set_option Elab.async false

open Sys2Proof.Machine Sys2Proof.Config Sys2Proof.Safety

/-! ### Operations on voices -/

/-- Only the voices hold phases. -/
theorem inUnit_of_voice_eq {s t : State} (h : t.voice = s.voice) (hs : PhasesInUnit s) : PhasesInUnit t := by
  rw [phasesInUnit_iff, h]; exact hs

theorem setResult_inUnit (w : Word) {s : State} (hs : PhasesInUnit s) : PhasesInUnit (setResult w s) :=
  inUnit_of_voice_eq rfl hs

theorem modVoice_inUnit {v : Fin NVOICE} {f : Voice → Voice} {s : State}
    (hf : VoiceInUnit s.voice[v] → VoiceInUnit (f s.voice[v])) (hs : PhasesInUnit s) :
    PhasesInUnit (modVoice v f s) := forall_vmod (P := VoiceInUnit) hs hf

theorem modOsc_inUnit {v : Fin NVOICE} {o : Fin NOSC} {f : Osc → Osc} {s : State}
    (hf : OscInUnit s.voice[v].osc[o] → OscInUnit (f s.voice[v].osc[o])) (hs : PhasesInUnit s) :
    PhasesInUnit (modOsc v o f s) := modVoice_inUnit (fun hV => forall_vmod (P := OscInUnit) hV hf) hs

theorem modEnv_inUnit (v : Fin NVOICE) (e : Fin NENV) (f : Env → Env) {s : State} (hs : PhasesInUnit s) :
    PhasesInUnit (modEnv v e f s) := modVoice_inUnit (fun hV => hV) hs

theorem modFlt_inUnit (v : Fin NVOICE) (f : Flt → Flt) {s : State} (hs : PhasesInUnit s) :
    PhasesInUnit (modFlt v f s) := modVoice_inUnit (fun hV => hV) hs

theorem modAllEnvs_inUnit (f : Env → Env) {s : State} (hs : PhasesInUnit s) : PhasesInUnit (modAllEnvs f s) := by
  rw [phasesInUnit_iff]
  intro v
  have hv : (modAllEnvs f s).voice[v] = { s.voice[v] with env := vmap f s.voice[v].env } :=
    vmap_get _ s.voice v.val v.isLt
  rw [hv]
  exact hs v

theorem compactVoice_inUnit (v : Fin NVOICE) {s : State} (hs : PhasesInUnit s) :
    PhasesInUnit (compactVoice v s) := modVoice_inUnit (fun hV => hV) hs

theorem applyVoice_inUnit (v : Fin NVOICE) {s : State} (hs : PhasesInUnit s) :
    PhasesInUnit (applyVoice v s) := modVoice_inUnit (fun hV => hV) hs

theorem noteOffOp_inUnit (v : Fin NVOICE) (fast : Bool) {s : State} (hs : PhasesInUnit s) :
    PhasesInUnit (noteOffOp v fast s) := modVoice_inUnit (fun hV => hV) hs

/-- Note-on resets both oscillators (R830). -/
theorem noteOnOp_inUnit (v : Fin NVOICE) (note vel : Nat) {s : State} (hs : PhasesInUnit s) :
    PhasesInUnit (noteOnOp v note vel s) := by
  refine compactVoice_inUnit v (modVoice_inUnit (fun _ o => ?_) hs)
  have ho : (noteOnVoice s.sampleRate s.patch note vel s.voice[v]).osc[o] = oscReset s.voice[v].osc[o] :=
    vmap_get oscReset s.voice[v].osc o.val o.isLt
  rw [ho]
  exact oscReset_inUnit _

/-- A pitch change writes increments only (R510). -/
theorem setPitch_inUnit (v : Fin NVOICE) (o : Fin NOSC) (spread base : F32) {s : State} (hs : PhasesInUnit s) :
    PhasesInUnit (setPitch v o spread base s) :=
  modOsc_inUnit (fun hO => by rw [oscSetUnisonPitch_eq]; exact hO) hs

theorem mixFm_inUnit (v : Fin NVOICE) (o : Fin NOSC) {s : State} (hs : PhasesInUnit s) :
    PhasesInUnit (mixFm v o s) := modOsc_inUnit (fun hO => hO) hs

/-- The phase a master forces is one of its own stored ones (R550). -/
theorem syncPhase_inUnit (v : Fin NVOICE) (o : Fin NOSC) {s : State} (hs : PhasesInUnit s) :
    ∀ ph ∈ syncPhase v o s, InRange f0 incMax ph := by
  intro ph hph
  unfold syncPhase at hph
  split at hph
  · obtain rfl := Option.some.inj hph
    exact (hs v 0).1
  · cases hph

theorem stepOsc_inUnit (v : Fin NVOICE) (o : Fin NOSC) {s : State} (hs : PhasesInUnit s) :
    PhasesInUnit (stepOsc v o s) :=
  modOsc_inUnit (oscStep_inUnit _ (syncPhase_inUnit v o hs) _) hs

/-! ### Faults and writes -/

theorem raise_inUnit (c : Cause) (info loc : Word) {s : State} (hs : PhasesInUnit s) :
    PhasesInUnit (raise c info loc s) := by
  have hrecord : PhasesInUnit (recordFault c info loc s) := by
    unfold recordFault
    split <;> exact hs
  unfold raise abortBlock
  split
  · split
    · exact modAllEnvs_inUnit envKill hrecord
    · exact hrecord
  · exact hrecord

theorem raiseAccess_inUnit (c : Cause) (info : Word) {s : State} (hs : PhasesInUnit s) :
    PhasesInUnit (raiseAccess c info s) := raise_inUnit c info _ hs

theorem writeLoc_inUnit (x : Word) (l : Loc) {s : State} (hs : PhasesInUnit s) : PhasesInUnit (writeLoc s x l) := by
  cases l
  case voice v r =>
    refine modVoice_inUnit (fun hV => ?_) hs
    cases r
    case osc o r => exact forall_vmod (P := OscInUnit) hV (writeOsc_inUnit x r)
    all_goals exact hV
  case wtBlen bank => cases bank <;> exact hs
  all_goals exact hs

theorem busRead_inUnit (a : Word) {s : State} (hs : PhasesInUnit s) : PhasesInUnit (busRead a s) := by
  have hfault (c : Cause) : PhasesInUnit (faultRead c a s) := raiseAccess_inUnit c a hs
  unfold busRead
  split
  · exact hfault _
  · split
    · exact hfault _
    · unfold readEffect
      split <;> exact hs

/-! ### Instructions -/

theorem acceptVU_inUnit {units : Nat} (c : Word) (voice : BitVec 8) (unit : BitVec 4)
    {f : Fin NVOICE → Fin units → State → State} {s : State} (hs : PhasesInUnit s)
    (hf : ∀ v u, PhasesInUnit (f v u s)) : PhasesInUnit (acceptVU c voice unit units f s) := by
  rcases acceptVU_cases c voice unit units f s with
    ⟨-, h⟩ | ⟨-, -, h⟩ | ⟨-, -, -, h⟩ | ⟨-, -, -, -, h⟩ | ⟨-, -, hv, hu, h⟩
  · rwa [h]
  · rw [h]; exact raiseAccess_inUnit _ _ hs
  · rw [h]; exact raiseAccess_inUnit _ _ hs
  · rw [h]; exact raiseAccess_inUnit _ _ hs
  · rw [h]; exact hf _ _

theorem acceptG_inUnit (c : Word) {f : State → State} {s : State} (hs : PhasesInUnit s)
    (hf : PhasesInUnit (f s)) : PhasesInUnit (acceptG c f s) := by
  rcases acceptG_cases c f s with ⟨-, h⟩ | ⟨-, -, h⟩ | ⟨-, -, h⟩
  · rwa [h]
  · rw [h]; exact raiseAccess_inUnit _ _ hs
  · rwa [h]

theorem runCommand_inUnit {s : State} (hs : PhasesInUnit s) : PhasesInUnit (runCommand s) := by
  unfold runCommand
  split
  · exact raise_inUnit _ _ _ hs
  · exact hs

theorem onVoice_inUnit (target : BitVec 16) {f : Fin NVOICE → State → State} {s : State} (hs : PhasesInUnit s)
    (hf : ∀ v, PhasesInUnit (f v s)) : PhasesInUnit (onVoice target f s) := by
  unfold onVoice
  split
  · exact hf _
  · exact hs

/-- Every instruction keeps every phase in [0, 1). -/
theorem exec_inUnit {i : Instr} {s t : State} (h : exec i s = .next t) (hs : PhasesInUnit s) : PhasesInUnit t := by
  cases i <;> obtain rfl := Host.Outcome.next.inj h
  case nop | evPitchBend => exact hs
  case run => exact acceptG_inUnit _ hs (runCommand_inUnit hs)
  case panic =>
    split
    · exact hs
    · split
      · exact hs
      · exact modAllEnvs_inUnit envKill hs
  case allNotesOff => exact acceptG_inUnit _ hs (modAllEnvs_inUnit envRelease hs)
  case errClear =>
    split
    · exact hs
    · split
      · exact raiseAccess_inUnit _ _ hs
      · exact hs
  case noteOn => exact acceptVU_inUnit _ _ _ hs fun v _ => noteOnOp_inUnit v _ _ hs
  case noteOff => exact acceptVU_inUnit _ _ _ hs fun v _ => noteOffOp_inUnit v _ hs
  case envRetrigger | envRelease | envFastRelease | envKill | envSetTimes | envTriggerDelayed | envSetDelayHold =>
    exact acceptVU_inUnit _ _ _ hs fun v e => modEnv_inUnit v e _ hs
  case envStep => exact acceptVU_inUnit _ _ _ hs fun v e => setResult_inUnit _ (modEnv_inUnit v e _ hs)
  case oscSetUnisonPitch => exact acceptVU_inUnit _ _ _ hs fun v o => setPitch_inUnit v o _ _ hs
  case oscStep => exact acceptVU_inUnit _ _ _ hs fun v o => setResult_inUnit _ (stepOsc_inUnit v o hs)
  case oscReset => exact acceptVU_inUnit _ _ _ hs fun v o => modOsc_inUnit (fun _ => oscReset_inUnit _) hs
  case oscFmMix => exact acceptVU_inUnit _ _ _ hs fun v o => mixFm_inUnit v o hs
  case fltSetCutoffBase | fltAddCutoffMod | fltSetResonance | fltReset =>
    exact acceptVU_inUnit _ _ _ hs fun v _ => modFlt_inUnit v _ hs
  case fltSetCutoff | fltStep =>
    exact acceptVU_inUnit _ _ _ hs fun v _ => setResult_inUnit _ (modFlt_inUnit v _ hs)
  case mmCompact => exact acceptVU_inUnit _ _ _ hs fun v _ => setResult_inUnit _ (compactVoice_inUnit v hs)
  case mmApply => exact acceptVU_inUnit _ _ _ hs fun v _ => setResult_inUnit _ (applyVoice_inUnit v hs)
  case evNoteOn => exact onVoice_inUnit _ hs fun v => noteOnOp_inUnit v _ _ hs
  case evNoteOff => exact onVoice_inUnit _ hs fun v => noteOffOp_inUnit v _ hs
  case evControllerM => split <;> exact hs
  case evAutomation =>
    split
    · exact writeLoc_inUnit _ _ hs
    · exact hs

/-! ### One sample -/

theorem voiceOscillators_inUnit (v : Fin NVOICE) {s : State} (hs : PhasesInUnit s) :
    PhasesInUnit (voiceOscillators v s) := by
  unfold voiceOscillators
  exact stepOsc_inUnit v 1 <| stepOsc_inUnit v 0 <| mixFm_inUnit v 1 <| mixFm_inUnit v 0 <|
    setPitch_inUnit v 1 _ _ <| setPitch_inUnit v 0 _ _ hs

theorem foldl_inUnit {α : Type} {f : State → α → State} (hf : ∀ s a, PhasesInUnit s → PhasesInUnit (f s a))
    (l : List α) {s : State} (hs : PhasesInUnit s) : PhasesInUnit (l.foldl f s) := by
  induction l generalizing s with
  | nil => exact hs
  | cons a l ih => exact ih (hf s a hs)

theorem voiceStep_inUnit (v : Fin NVOICE) {s : State} (hs : PhasesInUnit s) : PhasesInUnit (voiceStep v s).2 := by
  have henv : PhasesInUnit (voiceEnvelopes v (voiceOscillators v s)) :=
    foldl_inUnit (fun _ e => modEnv_inUnit v e _) _ (voiceOscillators_inUnit v hs)
  have hflt {t : State} (ht : PhasesInUnit t) : PhasesInUnit (voiceFilter v t).2 := by
    unfold voiceFilter
    exact modFlt_inUnit v _ ht
  unfold voiceStep
  exact applyVoice_inUnit v (hflt henv)

theorem render_inUnit {s : State} (hs : PhasesInUnit s) : PhasesInUnit (render s).2 := by
  have all (l : List (Fin NVOICE)) (st : F32 × State) (hst : PhasesInUnit st.2) :
      PhasesInUnit (l.foldl renderVoice st).2 := by
    induction l generalizing st with
    | nil => exact hst
    | cons v l ih =>
      rw [List.foldl_cons]
      refine ih _ ?_
      unfold renderVoice
      split
      · show PhasesInUnit (voiceStep v st.2).2
        exact voiceStep_inUnit v hst
      · exact hst
  exact all _ (f0, s) hs

theorem soundSample_inUnit {s : State} (hs : PhasesInUnit s) : PhasesInUnit (soundSample s) := by
  have hpanic : PhasesInUnit (applyPanic s) := by
    unfold applyPanic
    split
    · exact modAllEnvs_inUnit envKill hs
    · exact hs
  have hfinish (x : F32) {t : State} (ht : PhasesInUnit t) : PhasesInUnit (finishSample x t) := by
    have hstore : PhasesInUnit (storeOut t.schedI.toNat x t) := by
      unfold storeOut
      split <;> exact ht
    rw [finishSample_eq]
    split <;> exact hstore
  unfold soundSample
  exact hfinish _ (render_inUnit hpanic)

theorem bindNext_eq_next {o : Host.Outcome State Fault Refusal} {f : State → Host.Outcome State Fault Refusal}
    {t : State} (h : bindNext o f = .next t) : ∃ m, o = .next m ∧ f m = .next t := by
  cases o with
  | next m => exact ⟨m, rfl, h⟩
  | fault r => cases h
  | refused r => cases h

theorem dispatch_inUnit {q : Queue} {j : Nat} {s t : State} (h : dispatch q j s = .next t) (hs : PhasesInUnit s) :
    PhasesInUnit t := by
  unfold dispatch at h
  split at h
  · exact exec_inUnit h hs
  · obtain rfl := Host.Outcome.next.inj h
    exact hs

theorem drain_inUnit {q : Queue} {n : Nat} {s t : State} (h : drain q n s = .next t) (hs : PhasesInUnit s) :
    PhasesInUnit t := by
  induction n generalizing s with
  | zero => obtain rfl := Host.Outcome.next.inj h; exact hs
  | succ n ih =>
    unfold drain at h
    split at h
    · obtain ⟨m, hm, hrest⟩ := bindNext_eq_next h
      have hadvance : PhasesInUnit (advance q m) :=
        inUnit_of_voice_eq (by cases q <;> rfl) (dispatch_inUnit hm hs)
      exact ih hrest hadvance
    · obtain rfl := Host.Outcome.next.inj h
      exact hs

theorem sampleStep_inUnit {s t : State} (h : sampleStep s = .next t) (hs : PhasesInUnit s) : PhasesInUnit t := by
  have hswap : PhasesInUnit (swapCheck s) := by
    obtain ⟨b, r, q, hframe⟩ := swapCheck_frame s
    rw [hframe]; exact hs
  obtain ⟨m, hm, hrest⟩ := bindNext_eq_next h
  obtain ⟨a, ha, hsound⟩ := bindNext_eq_next hrest
  obtain rfl := Host.Outcome.next.inj hsound
  exact soundSample_inUnit (drain_inUnit ha (drain_inUnit hm hswap))

/-! ### One step -/

theorem scheduler_inUnit {s t : State} (h : scheduler s = .next t) (hs : PhasesInUnit s) : PhasesInUnit t := by
  unfold scheduler at h
  split at h
  · exact sampleStep_inUnit h hs
  · obtain rfl := Host.Outcome.next.inj h
    exact hs

theorem commandWrite_inUnit {c : Word} {s t : State} (h : commandWrite c s = .next t) (hs : PhasesInUnit s) :
    PhasesInUnit t := by
  unfold commandWrite at h
  split at h
  · exact exec_inUnit h hs
  · obtain rfl := Host.Outcome.next.inj h
    split
    · exact hs
    · exact raiseAccess_inUnit _ _ hs

theorem busWrite_inUnit {a x : Word} {s t : State} (h : busWrite a x s = .next t) (hs : PhasesInUnit s) :
    PhasesInUnit t := by
  have hfault {c : Cause} (hraise : (.next (raiseAccess c a s) : Host.Outcome State Fault Refusal) = .next t) :
      PhasesInUnit t := by
    obtain rfl := Host.Outcome.next.inj hraise
    exact raiseAccess_inUnit c a hs
  unfold busWrite storeLoc at h
  split at h
  · exact hfault h
  split at h
  · exact hfault h
  split at h
  · exact hfault h
  split at h
  · exact commandWrite_inUnit h hs
  · obtain rfl := Host.Outcome.next.inj h
    exact writeLoc_inUnit x _ hs

theorem resetInput_inUnit (s : State) : PhasesInUnit (resetInput s) := by
  rw [phasesInUnit_iff]
  intro v o
  have hv : (resetInput s).voice[v] = Voice.reset := Vector.getElem_replicate v.isLt
  have ho : Voice.reset.osc[o] = Osc.reset := Vector.getElem_replicate o.isLt
  rw [hv, ho]
  exact oscReset_inUnit Osc.reset

theorem takeTurn_inUnit {turn : Turn} {s t : State} (h : takeTurn turn s = .next t) (hs : PhasesInUnit s) :
    PhasesInUnit t := by
  cases turn with
  | read a => obtain rfl := Host.Outcome.next.inj h; exact busRead_inUnit a hs
  | write a x => exact busWrite_inUnit h hs
  | sample => exact scheduler_inUnit h hs
  | reset => obtain rfl := Host.Outcome.next.inj h; exact resetInput_inUnit s

/-- Settles O58: phases are written by resets, by clamped bus writes and by OSC_STEP, whose wrap suffices. -/
theorem phasesStayInUnitRange : Obligations.PhasesStayInUnitRange := by
  unfold Obligations.PhasesStayInUnitRange
  intro s t hs h
  unfold step at h
  split at h
  · exact scheduler_inUnit h hs
  · exact takeTurn_inUnit h hs

end Sys2Proof.Proofs
end

section
/-! SUPPORT. The oscillator commands (41_oscillator.md R510-R560): an accepted command replaces one oscillator, and the
model's waveforms and lanes are those of the rules. Settles O36, O38 and O39. -/

namespace Sys2Proof.Proofs

-- One proof after another, as in the tests: proofs checked at once would hold too many threads.
set_option Elab.async false

open Sys2Proof.Machine Sys2Proof.Config Sys2Proof.Safety

/-! ### Accepted commands -/

/-- An accepted command that updates one oscillator replaces that oscillator by its update (R301 step 7). -/
theorem acceptVU_modOsc (c : Word) {voice : BitVec 8} {unit : BitVec 4} (hv : voice.toNat < NVOICE)
    (hu : unit.toNat < NOSC) {s : State} (hs : Accepting s) (f : Fin NVOICE → Fin NOSC → State → Osc → Osc) :
    acceptVU c voice unit NOSC (fun v o s => modOsc v o (f v o s) s) s =
      withOsc s ⟨voice.toNat, hv⟩ ⟨unit.toNat, hu⟩ (f ⟨voice.toNat, hv⟩ ⟨unit.toNat, hu⟩ s
        (s.voice[(⟨voice.toNat, hv⟩ : Fin NVOICE)].osc[(⟨unit.toNat, hu⟩ : Fin NOSC)])) := by
  obtain ⟨hf, hb⟩ := hs
  rw [acceptVU_ok c voice unit NOSC _ s hf hb hv hu, modOsc_eq_withOsc]

/-- Settles O39: each of the two replaces the oscillator. -/
theorem oscResetAndFmMixWriteOneOscillator : Obligations.OscResetAndFmMixWriteOneOscillator := by
  unfold Obligations.OscResetAndFmMixWriteOneOscillator
  intro s voice unit hv hu hs v o p
  exact ⟨congrArg _ (acceptVU_modOsc _ hv hu hs fun _ _ _ => oscReset),
    congrArg _ (acceptVU_modOsc _ hv hu hs fun v o s O => { O with
      fmIn := fAdd (fMul s.patch.osc[o].fm0 s.voice[v].osc[0].out)
        (fMul s.patch.osc[o].fm1 s.voice[v].osc[1].out) })⟩

theorem laneInc_eq_lanePitchInc (sr : F32) (n : Nat) (spread base : F32) (u : Nat) :
    laneInc sr n spread base u = lanePitchInc sr n spread base u := rfl

/-- Settles O36: the fold over the lanes sets the increments below n. -/
theorem oscSetUnisonPitchWritesActiveLanes : Obligations.OscSetUnisonPitchWritesActiveLanes := by
  unfold Obligations.OscSetUnisonPitchWritesActiveLanes
  intro s voice unit hv hu hs v o n
  refine congrArg _ ((acceptVU_modOsc _ hv hu hs fun _ o s =>
    oscSetUnisonPitch s.sampleRate s.patch.osc[o].uni.toNat s.arg[0] s.arg[1]).trans ?_)
  rw [oscSetUnisonPitch_eq]
  rfl

/-! ### OSC_STEP -/

theorem wavetableAt_eq (s : State) (p : F32) : wavetableAt s p = finite (wavetableWord s p) := by
  have hlen : (activeLen s).toNat = if s.activeBank then s.wtBlen1.toNat else s.wtBlen0.toNat := by
    unfold activeLen
    split <;> rfl
  rw [wavetableAt, hlen, min_comm, min_def_lt]
  rfl

theorem waveAt_eq_waveShape (s : State) (w : Waveform) : waveAt s w = waveShape s w := by
  funext p
  cases w
  case wavetable => exact wavetableAt_eq s p
  all_goals rfl

theorem phaseAfter_eq_laneAfter (sync : Bool) (master O : Osc) (u : Fin NUNI_MAX) :
    phaseAfter (if sync then some master.syncPh else none) O u = laneAfter sync master O u := by
  cases sync <;> rfl

/-- With lane 0 among the active ones the step is R540's, field by field. -/
theorem oscStep_eq_oscStepped (wave : F32 → F32) (sync : Bool) (master : Osc) {n : Nat} (hn : 1 ≤ n) (O : Osc) :
    oscStep wave (if sync then some master.syncPh else none) n O = oscStepped wave sync master n O := by
  have hzero : (0 : Fin NUNI_MAX).val < n := hn
  have hmem (u : Fin NUNI_MAX) : (u ∈ (List.finRange NUNI_MAX).filter fun u => u.val < n) ↔ u.val < n := by simp
  unfold oscStep oscStepped
  simp only [stepLanes_eq, lanesStepped, foldl_set_eq_ofFn, phaseAfter_eq_laneAfter, hmem, if_pos hzero]

/-- The model's test for a forced phase is R550's. -/
theorem syncPhase_eq (v : Fin NVOICE) (o : Fin NOSC) (s : State) : syncPhase v o s =
    if decide (o.val = 1) && s.patch.osc[1].sync && s.voice[v].osc[0].wrap then some s.voice[v].osc[0].syncPh
    else none := by
  simp only [syncPhase, Bool.and_eq_true, decide_eq_true_eq, and_assoc, Fin.ext_iff]
  rfl

/-- The oscillator a step of O[v][o] leaves in the machine (R540). -/
theorem stepOsc_osc (v : Fin NVOICE) (o : Fin NOSC) (s : State) : (stepOsc v o s).voice[v].osc[o] =
    oscStep (waveAt s s.patch.osc[o].wave) (syncPhase v o s) s.patch.osc[o].uni.toNat s.voice[v].osc[o] := by
  rw [stepOsc, modOsc, modVoice_voice_same]
  exact vmod_get_same _ _ _

/-- Settles O38: the step is the rule's, and RESULT takes the output it leaves. -/
theorem oscStepAdvancesTheActiveLanes : Obligations.OscStepAdvancesTheActiveLanes := by
  unfold Obligations.OscStepAdvancesTheActiveLanes
  intro s voice unit hv hu hs v o p sync hn _ O'
  obtain ⟨hf, hb⟩ := hs
  have hO : oscStep (waveAt s p.wave) (syncPhase v o s) p.uni.toNat s.voice[v].osc[o] = O' := by
    rw [waveAt_eq_waveShape, syncPhase_eq]
    exact oscStep_eq_oscStepped _ _ _ hn _
  refine congrArg _ ((acceptVU_ok _ voice unit NOSC _ s hf hb hv hu).trans ?_)
  rw [stepOsc_osc, stepOsc, modOsc_eq_withOsc, hO]
  rfl

end Sys2Proof.Proofs
end

section
/-! SUPPORT. The symmetry of the unison lanes (41_oscillator.md R510): a product or quotient of which one operand changes
its sign changes its sign and nothing else. Settles O37. -/

namespace Sys2Proof.Proofs

-- One proof after another, as in the tests: proofs checked at once would hold too many threads.
set_option Elab.async false

open Sys2Proof.Machine Sys2Proof.Config Sys2Proof.Safety

/-! ### Signs -/

theorem roundMag_le_infMag (n d : Nat) : roundMag n d ≤ infMag := min_le_right _ _

theorem roundMag_zero (d : Nat) : roundMag 0 d = 0 := by simp [roundMag, roundDiv]

theorem fPack_fields (b : Bool) {m : Nat} (h : m ≤ infMag) : fSign (fPack b m) = b ∧ fMag (fPack b m) = m := by
  have hm : m < 2 ^ 31 := lt_of_le_of_lt h (by decide)
  cases b <;> simp [fPack, fSign, fMag] <;> omega

/-- The sign and the magnitude bits are all of a pattern (R206). -/
theorem eq_of_fields {x y : F32} (hsign : fSign x = fSign y) (hmag : fMag x = fMag y) : x = y := by
  have hx := x.isLt
  have hy := y.isLt
  unfold fMag at hmag
  rw [fSign, fSign, decide_eq_decide] at hsign
  exact BitVec.eq_of_toNat_eq (by omega)

/-- Negation flips the sign of a packed value (R19). -/
theorem fPack_not (b : Bool) {m : Nat} (h : m ≤ infMag) : fPack (!b) m = fNeg (fPack b m) := by
  obtain ⟨hsign, hmag⟩ := fPack_fields b h
  obtain ⟨hsign', hmag'⟩ := fPack_fields (!b) h
  exact eq_of_fields (by rw [hsign', fSign_fNeg, hsign]) (by rw [hmag', fMag_fNeg, hmag])

/-- Negating an integer other than 0 negates its value; 0 has only the one zero (R19). -/
theorem fOfInt_neg {k : Int} (h : k ≠ 0) : fOfInt (-k) = fNeg (fOfInt k) := by
  have hsign : decide (-k < 0) = !decide (k < 0) := by
    rw [← decide_not, decide_eq_decide]; omega
  rw [fOfInt, fOfInt, hsign, Int.natAbs_neg, fPack_not _ (roundMag_le_infMag _ _)]

/-- A quotient of finite values, its divisor not 0, is packed from the sign and the magnitudes (R18). -/
theorem fDiv_finite {x y : F32} (hx : isFinite x = true) (hy : isFinite y = true) (h0 : fMag y ≠ 0) :
    fDiv x y = fPack (fSign x != fSign y) (roundMag (fixMag (fMag x) * 2 ^ 149) (fixMag (fMag y))) := by
  simp [fDiv, isFinite_not_nan hx, isFinite_not_nan hy, isFinite_not_inf hx, isFinite_not_inf hy, h0]

/-- A product of finite values is packed from the sign and the magnitudes (R18). -/
theorem fMul_finite {x y : F32} (hx : isFinite x = true) (hy : isFinite y = true) :
    fMul x y = fPack (fSign x != fSign y) (roundMag (fixMag (fMag x) * fixMag (fMag y)) (2 ^ 149)) := by
  simp [fMul, isFinite_not_nan hx, isFinite_not_nan hy, isFinite_not_inf hx, isFinite_not_inf hy]

theorem isFinite_fNeg (x : F32) : isFinite (fNeg x) = isFinite x := by rw [isFinite, isFinite, fMag_fNeg]

theorem fDiv_fNeg_left {x y : F32} (hx : isFinite x = true) (hy : isFinite y = true) (h0 : fMag y ≠ 0) :
    fDiv (fNeg x) y = fNeg (fDiv x y) := by
  rw [fDiv_finite (by rwa [isFinite_fNeg]) hy h0, fDiv_finite hx hy h0, fSign_fNeg, fMag_fNeg, Bool.not_bne,
    fPack_not _ (roundMag_le_infMag _ _)]

theorem fMul_fNeg_right {x y : F32} (hx : isFinite x = true) (hy : isFinite y = true) :
    fMul x (fNeg y) = fNeg (fMul x y) := by
  rw [fMul_finite hx (by rwa [isFinite_fNeg]), fMul_finite hx hy, fSign_fNeg, fMag_fNeg, Bool.bne_not,
    fPack_not _ (roundMag_le_infMag _ _)]

/-- Zero divided by a finite value other than 0 is a zero. -/
theorem fMag_fDiv_zero_left {x y : F32} (hx : fMag x = 0) (hy : isFinite y = true) (h0 : fMag y ≠ 0) :
    fMag (fDiv x y) = 0 := by
  have hxf : isFinite x = true := by rw [isFinite, hx]; rfl
  have hfix : fixMag 0 = 0 := rfl
  rw [fDiv_finite hxf hy h0, hx, hfix, Nat.zero_mul, roundMag_zero]
  exact (fPack_fields _ (Nat.zero_le _)).2

/-- A finite value times a zero is a zero. -/
theorem fMag_fMul_zero_right {x y : F32} (hx : isFinite x = true) (hy : fMag y = 0) : fMag (fMul x y) = 0 := by
  have hyf : isFinite y = true := by rw [isFinite, hy]; rfl
  have hfix : fixMag 0 = 0 := rfl
  rw [fMul_finite hx hyf, hy, hfix, Nat.mul_zero, roundMag_zero]
  exact (fPack_fields _ (Nat.zero_le _)).2

/-- Both zeros compare equal to 0.0 (R19). -/
theorem fEq_zero_of_fMag {x : F32} (h : fMag x = 0) : fEq x f0 = true := by
  have hnan : isNaN x = false := by rw [isNaN, h]; rfl
  have hord : fOrd x = fOrd f0 := by simp [fOrd, h, show fMag f0 = 0 from rfl]
  simp [fEq, hnan, hord, show isNaN f0 = false from rfl]

/-! ### Lane positions (R510) -/

/-- The position of lane `u` of `n` between −1 and 1: fl(float(2u − n + 1) / float(2n − 2)). -/
def lanePosition (n u : Nat) : F32 := fDiv (fOfInt (2 * (u : Int) - n + 1)) (fOfInt (2 * (n : Int) - 2))

theorem laneOffset_eq {n : Nat} (h : n ≠ 1) (spread : F32) (u : Nat) :
    laneOffset n spread u = fMul spread (lanePosition n u) := if_neg h

/-- Every quotient of R510 has finite operands, a divisor that is not 0, and a finite value. -/
theorem lanePosition_finite : ∀ n ≤ NUNI_MAX, 2 ≤ n → ∀ u < n,
    isFinite (fOfInt (2 * (u : Int) - n + 1)) = true ∧ isFinite (fOfInt (2 * (n : Int) - 2)) = true ∧
      fMag (fOfInt (2 * (n : Int) - 2)) ≠ 0 ∧ isFinite (lanePosition n u) = true := by
  decide

/-- Lane n − 1 − u stands opposite lane u, but for an odd count's centre, whose position has no negative (R510). -/
theorem lanePosition_mirror {n u : Nat} (hn : 2 ≤ n) (hmax : n ≤ NUNI_MAX) (hu : u < n) (hc : 2 * u + 1 ≠ n) :
    lanePosition n (n - 1 - u) = fNeg (lanePosition n u) := by
  obtain ⟨hnum, hden, h0, -⟩ := lanePosition_finite n hmax hn u hu
  have hmirror : 2 * ((n - 1 - u : Nat) : Int) - n + 1 = -(2 * (u : Int) - n + 1) := by omega
  rw [lanePosition, hmirror, fOfInt_neg (by omega), fDiv_fNeg_left hnum hden h0, lanePosition]

theorem lanePosition_center {n u : Nat} (hn : 2 ≤ n) (hmax : n ≤ NUNI_MAX) (hc : 2 * u + 1 = n) :
    fMag (lanePosition n u) = 0 := by
  obtain ⟨-, hden, h0, -⟩ := lanePosition_finite n hmax hn u (by omega)
  have hzero : 2 * (u : Int) - n + 1 = 0 := by omega
  rw [lanePosition, hzero]
  exact fMag_fDiv_zero_left rfl hden h0

/-- Settles O37: positions are opposite, and a product with the opposite position is the opposite product. -/
theorem unisonOffsetsAreSymmetric : Obligations.UnisonOffsetsAreSymmetric := by
  unfold Obligations.UnisonOffsetsAreSymmetric
  intro n u spread hn hmax hu hspread
  have hs : isFinite spread = true := isFinite_of_inRange (by decide) (by decide) hspread
  obtain ⟨-, -, -, hpos⟩ := lanePosition_finite n hmax hn u hu
  have hne : n ≠ 1 := by omega
  rw [laneOffset_eq hne, laneOffset_eq hne]
  constructor
  · intro hc
    rw [lanePosition_mirror hn hmax hu hc, fMul_fNeg_right hs hpos]
  · intro hc
    exact fEq_zero_of_fMag (fMag_fMul_zero_right hs (lanePosition_center hn hmax hc))

end Sys2Proof.Proofs
end

section
/-! SUPPORT. The filter commands (42_filter.md R610-R640): an accepted command replaces the voice's filter, and the
model's fold over the sections is the cascade of R630. Settles O40 to O42. -/

namespace Sys2Proof.Proofs

-- One proof after another, as in the tests: proofs checked at once would hold too many threads.
set_option Elab.async false

open Sys2Proof.Machine Sys2Proof.Config Sys2Proof.Safety

/-! ### Accepted commands -/

/-- An accepted command has its effect on the one filter of its voice (R301 step 7). -/
theorem acceptVU_filter (c : Word) {voice : BitVec 8} (hv : voice.toNat < NVOICE) {s : State} (hs : Accepting s)
    (f : Fin NVOICE → State → State) :
    acceptVU c voice 0#4 1 (fun v _ s => f v s) s = f ⟨voice.toNat, hv⟩ s := by
  obtain ⟨hf, hb⟩ := hs
  exact acceptVU_ok c voice 0#4 1 _ s hf hb hv Nat.one_pos

/-- The filter written is the one that is there. -/
theorem withFlt_self (s : State) (v : Fin NVOICE) : withFlt s v s.voice[v].flt = s := by
  have hvoice : s.voice.set v.val s.voice[v] v.isLt = s.voice := Vector.set_getElem_self v.isLt
  show { s with voice := s.voice.set v.val s.voice[v] v.isLt } = s
  rw [hvoice]

/-- Settles O40: each of the four replaces the filter. -/
theorem fltControlsWriteTheirFields : Obligations.FltControlsWriteTheirFields := by
  unfold Obligations.FltControlsWriteTheirFields
  intro s voice hv hs v F
  exact ⟨congrArg _ (acceptVU_filter _ hv hs fun v s => modFlt v (fltSetBase s.arg[0]) s),
    congrArg _ (acceptVU_filter _ hv hs fun v s => modFlt v (fltAddMod s.arg[0]) s),
    congrArg _ (acceptVU_filter _ hv hs fun v s => modFlt v (fltSetRes s.arg[0]) s),
    congrArg _ (acceptVU_filter _ hv hs fun v => modFlt v fltReset)⟩

/-! ### FLT_SET_CUTOFF -/

/-- FLT_SET_CUTOFF leaves the filter F', and its coefficient in RESULT (R612). -/
theorem exec_fltSetCutoff {voice : BitVec 8} (hv : voice.toNat < NVOICE) {s : State} (hs : Accepting s) {F' : Flt}
    (hF : fltSetCutoff s.sampleRate s.patch.flt.os s.voice[(⟨voice.toNat, hv⟩ : Fin NVOICE)].flt = F') :
    exec (.fltSetCutoff voice 0#4) s = .next (withResult (withFlt s ⟨voice.toNat, hv⟩ F') F'.coef) := by
  subst hF
  exact congrArg _ (acceptVU_filter _ hv hs fun v s =>
    setResult (fltSetCutoff s.sampleRate s.patch.flt.os s.voice[v].flt).coef
      (modFlt v (fltSetCutoff s.sampleRate s.patch.flt.os) s))

/-- float(OSF) of each oversampling code (R612, R631). -/
theorem fOfNat_osFactor (os : Oversampling) :
    fOfNat (osFactor os) = match os with | .x1 => f1 | .x2 => f2 | .x4 => f4 := by
  cases os <;> decide

/-- Settles O41: the model's condition is R612's, and a filter that does not recompute is the one there was. -/
theorem fltSetCutoffRecomputesOnChange : Obligations.FltSetCutoffRecomputesOnChange := by
  unfold Obligations.FltSetCutoffRecomputesOnChange
  intro s voice hv hs v F note coef
  constructor
  · intro hchange
    refine exec_fltSetCutoff hv hs ((if_pos hchange).trans ?_)
    rw [fOfNat_osFactor]
    rfl
  · intro hvalid hsame
    have hkeep : ¬ (F.valid = false ∨ fEq note F.last = false) := by simp [hvalid, hsame]
    rw [exec_fltSetCutoff hv hs (if_neg hkeep), withFlt_self]

/-! ### The chain -/

/-- The model's repeated update is R620's, OSF times with one input (R631). -/
theorem secRepeat_eq_iterate (x f q : F32) (n : Nat) (K : Section) :
    secRepeat x f q n K = (secUpdate x f q)^[n] K := by
  induction n generalizing K with
  | zero => rfl
  | succ n ih => exact ih _

theorem secRepeat_eq_sectionAfter (p : FltPatch) (x : F32) (F : Flt) (k : Fin NSEC) :
    secRepeat x F.coef F.res (osFactor p.os) F.sec[k] = sectionAfter p x F k :=
  secRepeat_eq_iterate ..

theorem outSel_eq_response (p : FltPatch) (K : Section) : outSel p.eqGainDb p.type K = response p K := rfl

/-- The filter with section k replaced. -/
def withSection (F : Flt) (k : Fin NSEC) (K : Section) : Flt := { F with sec := F.sec.set k.val K k.isLt }

/-- A section updates from its own states: another section's update does not reach it. -/
theorem sectionAfter_withSection (p : FltPatch) (x : F32) (F : Flt) (K : Section) {j k : Fin NSEC} (h : j ≠ k) :
    sectionAfter p x (withSection F j K) k = sectionAfter p x F k := by
  have hsec : (withSection F j K).sec[k] = F.sec[k] :=
    Vector.getElem_set_ne j.isLt k.isLt fun e => h (Fin.ext e)
  rw [sectionAfter, hsec]
  rfl

/-- A section before the last one of the chain passes its low-pass output on (R630). -/
theorem chainSection_inner {p : FltPatch} {k : Fin NSEC} (h : k.val + 1 < polesCode p.poles) (F : Flt) (x : F32) :
    chainSection p (F, x) k = (withSection F k (sectionAfter p x F k), (sectionAfter p x F k).lp) := by
  rw [chainSection, if_pos (Nat.lt_of_succ_lt h), ← secRepeat_eq_sectionAfter]
  simp only [if_pos h, withSection]

/-- The last section of the chain gives the response (R621, R630). -/
theorem chainSection_last {p : FltPatch} {k : Fin NSEC} (h : k.val + 1 = polesCode p.poles) (F : Flt) (x : F32) :
    chainSection p (F, x) k = (withSection F k (sectionAfter p x F k), response p (sectionAfter p x F k)) := by
  rw [chainSection, if_pos (Nat.lt_of_succ_le h.le), ← secRepeat_eq_sectionAfter, ← outSel_eq_response]
  simp only [if_neg h.not_lt, withSection]

/-- A section past POLES stays (R630). -/
theorem chainSection_past {p : FltPatch} {k : Fin NSEC} (h : polesCode p.poles ≤ k.val) (st : Flt × F32) :
    chainSection p st k = st := if_neg h.not_gt

/-- The three sections of a filter, read one by one. -/
theorem sections_eq_of_get {K : Vector Section NSEC} {a b c : Section} (ha : K[0] = a) (hb : K[1] = b)
    (hc : K[2] = c) : K = #v[a, b, c] := by
  ext i hi
  match i, hi with
  | 0, _ => simp [ha]
  | 1, _ => simp [hb]
  | 2, _ => simp [hc]

/-- The fold over the sections is R630's cascade, for each number of poles. -/
theorem foldl_chainSection (p : FltPatch) (x : F32) (F : Flt) :
    (List.finRange NSEC).foldl (chainSection p) (F, x) =
      ({ F with sec := (chainAfter p x F).1 }, (chainAfter p x F).2) := by
  have hlist : List.finRange NSEC = [0, 1, 2] := rfl
  rw [hlist, List.foldl_cons, List.foldl_cons, List.foldl_cons, List.foldl_nil]
  cases h : p.poles with
  | two =>
    rw [chainSection_last (k := 0) (by rw [h]; rfl), chainSection_past (k := 1) (by rw [h]; decide),
      chainSection_past (k := 2) (by rw [h]; decide)]
    simp only [chainAfter, h]
    refine congrArg (fun K => ({ F with sec := K }, _)) (sections_eq_of_get ?_ ?_ ?_) <;> simp
  | four =>
    rw [chainSection_inner (k := 0) (by rw [h]; decide), chainSection_last (k := 1) (by rw [h]; rfl),
      chainSection_past (k := 2) (by rw [h]; decide),
      sectionAfter_withSection (j := 0) (k := 1) _ _ _ _ (by decide)]
    simp only [chainAfter, h]
    refine congrArg (fun K => ({ F with sec := K }, _)) (sections_eq_of_get ?_ ?_ ?_) <;> simp [withSection]
  | six =>
    rw [chainSection_inner (k := 0) (by rw [h]; decide), chainSection_inner (k := 1) (by rw [h]; decide),
      chainSection_last (k := 2) (by rw [h]; rfl),
      sectionAfter_withSection (j := 1) (k := 2) _ _ _ _ (by decide),
      sectionAfter_withSection (j := 0) (k := 2) _ _ _ _ (by decide),
      sectionAfter_withSection (j := 0) (k := 1) _ _ _ _ (by decide)]
    simp only [chainAfter, h]
    refine congrArg (fun K => ({ F with sec := K }, _)) (sections_eq_of_get ?_ ?_ ?_) <;> simp [withSection]

theorem fltStep_off {p : FltPatch} (h : p.type = .off) (x : F32) (F : Flt) : fltStep p x F = (F, finite x) := if_pos h

theorem fltStep_on {p : FltPatch} (h : p.type ≠ .off) (x : F32) (F : Flt) : fltStep p x F =
    ({ F with sec := (chainAfter p (finite x) F).1 }, (chainAfter p (finite x) F).2) :=
  (if_neg h).trans (foldl_chainSection p _ F)

/-- FLT_STEP leaves the filter F', and the output y in RESULT (R630). -/
theorem exec_fltStep {voice : BitVec 8} (hv : voice.toNat < NVOICE) {s : State} (hs : Accepting s) {F' : Flt} {y : F32}
    (hF : fltStep s.patch.flt s.arg[0] s.voice[(⟨voice.toNat, hv⟩ : Fin NVOICE)].flt = (F', y)) :
    exec (.fltStep voice 0#4) s = .next (withResult (withFlt s ⟨voice.toNat, hv⟩ F') y) := by
  obtain ⟨rfl, rfl⟩ := Prod.mk.inj hF
  exact congrArg _ (acceptVU_filter _ hv hs fun v s => setResult (fltStep s.patch.flt s.arg[0] s.voice[v].flt).2
    (modFlt v (fun F => (fltStep s.patch.flt s.arg[0] F).1) s))

/-- Settles O42: with TYPE OFF the filter is the one there was, else the fold's. -/
theorem fltStepRunsTheCascade : Obligations.FltStepRunsTheCascade := by
  unfold Obligations.FltStepRunsTheCascade
  intro s voice hv hs v F p x
  constructor
  · intro hoff
    rw [exec_fltStep hv hs (fltStep_off hoff _ _), withFlt_self]
  · intro hon
    exact exec_fltStep hv hs (fltStep_on hon _ _)

end Sys2Proof.Proofs
end

section
/-! SUPPORT. The modulation matrix (43_modmatrix.md R700-R731): which routes a compaction keeps and in which order, and
what an application adds to each destination. Settles O43 to O45. -/

namespace Sys2Proof.Proofs

-- One proof after another, as in the tests: proofs checked at once would hold too many threads.
set_option Elab.async false

open Sys2Proof.Machine Sys2Proof.Config Sys2Proof.Safety

/-! ### The retained routes (R702, R710) -/

/-- The list entry of route (s, c, k) (R145). -/
def routeEntry (depth : Vector F32 NROUTE) (s : Fin NSLOT) (c : Fin NCTRL) (k : Fin NSRC) : Route where
  slot := BitVec.ofNat 8 s.val
  control := BitVec.ofNat 8 c.val
  source := BitVec.ofNat 8 k.val
  depth := depth[routeIndex s c k]

/-- An entry holds the indices of its route: none of them is cut (R145). -/
theorem routeEntry_indices (depth : Vector F32 NROUTE) (s : Fin NSLOT) (c : Fin NCTRL) (k : Fin NSRC) :
    (routeEntry depth s c k).slot.toNat = s.val ∧ (routeEntry depth s c k).control.toNat = c.val ∧
      (routeEntry depth s c k).source.toNat = k.val := by
  have hs : s.val < 4 := s.isLt
  have hc : c.val < 3 := c.isLt
  have hk : k.val < 9 := k.isLt
  simp only [routeEntry, BitVec.toNat_ofNat]
  omega

theorem routeOf_eq_some {depth : Vector F32 NROUTE} {s : Fin NSLOT} {c : Fin NCTRL} {k : Fin NSRC} {r : Route} :
    routeOf depth s c k = some r ↔ fEq depth[routeIndex s c k] f0 = false ∧ r = routeEntry depth s c k := by
  unfold routeOf
  split
  next hzero => exact ⟨nofun, fun h => absurd (hzero.symm.trans h.1) nofun⟩
  next hdepth =>
    exact ⟨fun h => ⟨Bool.eq_false_of_not_eq_true hdepth, (Option.some.inj h).symm⟩,
      fun h => congrArg some h.2.symm⟩

/-- The retained routes of one slot: none if it is not active. -/
def slotRoutes (depth : Vector F32 NROUTE) (active : BitVec NSLOT) (s : Fin NSLOT) : List Route :=
  if active.getLsbD s.val then
    (List.finRange NCTRL).flatMap fun c => (List.finRange NSRC).filterMap fun k => routeOf depth s c k
  else []

theorem routes_eq_flatMap (depth : Vector F32 NROUTE) (active : BitVec NSLOT) :
    routes depth active = (List.finRange NSLOT).flatMap (slotRoutes depth active) := rfl

theorem mem_slotRoutes {depth : Vector F32 NROUTE} {active : BitVec NSLOT} {s : Fin NSLOT} {r : Route} :
    r ∈ slotRoutes depth active s ↔ active.getLsbD s.val = true ∧
      ∃ c k, fEq depth[routeIndex s c k] f0 = false ∧ r = routeEntry depth s c k := by
  unfold slotRoutes
  split
  next hactive =>
    simp only [hactive, true_and, List.mem_flatMap, List.mem_filterMap, List.mem_finRange, routeOf_eq_some]
  next hactive => exact ⟨nofun, fun h => absurd h.1 hactive⟩

/-- The retained routes are those of nonzero depth of the active slots (R710). -/
theorem mem_routes {depth : Vector F32 NROUTE} {active : BitVec NSLOT} {r : Route} :
    r ∈ routes depth active ↔ ∃ s c k, active.getLsbD s.val = true ∧
      fEq depth[routeIndex s c k] f0 = false ∧ r = routeEntry depth s c k := by
  simp only [routes_eq_flatMap, List.mem_flatMap, List.mem_finRange, true_and, mem_slotRoutes, exists_and_left]

/-! ### Their order (R710) -/

theorem routeBefore_routeEntry {depth : Vector F32 NROUTE} {s s' : Fin NSLOT} {c c' : Fin NCTRL} {k k' : Fin NSRC}
    (h : s < s' ∨ (s = s' ∧ (c < c' ∨ (c = c' ∧ k < k')))) :
    routeBefore (routeEntry depth s c k) (routeEntry depth s' c' k') := by
  obtain ⟨hs, hc, hk⟩ := routeEntry_indices depth s c k
  obtain ⟨hs', hc', hk'⟩ := routeEntry_indices depth s' c' k'
  simp only [routeBefore, BitVec.lt_def, ← BitVec.toNat_inj, hs, hc, hk, hs', hc', hk']
  omega

/-- The controls of a slot are scanned in order, and the sources of a control. -/
theorem slotRoutes_sorted (depth : Vector F32 NROUTE) (active : BitVec NSLOT) (s : Fin NSLOT) :
    (slotRoutes depth active s).Pairwise routeBefore := by
  unfold slotRoutes
  split
  · refine List.pairwise_flatMap.2 ⟨fun c _ => ?_, ?_⟩
    · refine List.pairwise_filterMap.2 ((List.pairwise_lt_finRange NSRC).imp ?_)
      intro k k' hk r hr r' hr'
      obtain ⟨-, rfl⟩ := routeOf_eq_some.1 hr
      obtain ⟨-, rfl⟩ := routeOf_eq_some.1 hr'
      exact routeBefore_routeEntry (.inr ⟨rfl, .inr ⟨rfl, hk⟩⟩)
    · refine (List.pairwise_lt_finRange NCTRL).imp ?_
      intro c c' hc r hr r' hr'
      obtain ⟨k, -, hk⟩ := List.mem_filterMap.1 hr
      obtain ⟨k', -, hk'⟩ := List.mem_filterMap.1 hr'
      obtain ⟨-, rfl⟩ := routeOf_eq_some.1 hk
      obtain ⟨-, rfl⟩ := routeOf_eq_some.1 hk'
      exact routeBefore_routeEntry (.inr ⟨rfl, .inl hc⟩)
  · exact .nil

theorem routes_sorted (depth : Vector F32 NROUTE) (active : BitVec NSLOT) :
    (routes depth active).Pairwise routeBefore := by
  rw [routes_eq_flatMap]
  refine List.pairwise_flatMap.2 ⟨fun s _ => slotRoutes_sorted depth active s, ?_⟩
  refine (List.pairwise_lt_finRange NSLOT).imp ?_
  intro s s' hs r hr r' hr'
  obtain ⟨-, c, k, -, rfl⟩ := mem_slotRoutes.1 hr
  obtain ⟨-, c', k', -, rfl⟩ := mem_slotRoutes.1 hr'
  exact routeBefore_routeEntry (.inl hs)

/-! ### MM_COMPACT -/

theorem overlay_get_past {α : Type} {n : Nat} (xs : Vector α n) (ys : List α) (i : Nat) (hi : i < n)
    (h : ys.length ≤ i) : (overlay xs ys)[i] = xs[i] := by
  simp [overlay, List.getElem_append_right h, Nat.add_sub_cancel' h]

theorem take_overlay {α : Type} {n : Nat} (xs : Vector α n) {ys : List α} (h : ys.length ≤ n) :
    (overlay xs ys).toList.take ys.length = ys := by
  simp [overlay, List.take_take, Nat.min_eq_left h]

/-- The retained routes laid over an old list are what R710 asks for. -/
theorem routes_compacted (p : Patch) (depth : Vector F32 NROUTE) (old : Vector Route NROUTE) :
    Compacted p depth old (overlay old (routes depth p.slotActive)) (routes depth p.slotActive).length := by
  have hget {i : Nat} (hi : i < NROUTE) (h : i < (routes depth p.slotActive).length) :=
    overlay_get old (routes depth p.slotActive) i hi h
  refine ⟨routes_length_le _ _, fun i hi h => ?_, fun i j hij hj h => ?_, fun s c k hactive hdepth => ?_,
    fun i hi h => overlay_get_past _ _ _ hi h⟩
  · rw [hget hi h]
    have hmem := List.getElem_mem h
    generalize (routes depth p.slotActive)[i] = r at hmem
    have hrange := routes_inRange hmem
    obtain ⟨s, c, k, hactive, hdepth, rfl⟩ := mem_routes.1 hmem
    obtain ⟨hs, hc, hk⟩ := routeEntry_indices depth s c k
    exact ⟨hrange, by rwa [hs], hdepth, fun _ => getElem_congr_idx (by rw [hs, hc, hk]; rfl)⟩
  · rw [hget hj h, hget (hij.trans hj) (hij.trans h)]
    exact List.pairwise_iff_getElem.1 (routes_sorted depth p.slotActive) i j _ h hij
  · obtain ⟨i, h, hr⟩ := List.mem_iff_getElem.1 (mem_routes.2 ⟨s, c, k, hactive, hdepth, rfl⟩)
    have hi := h.trans_le (routes_length_le depth p.slotActive)
    refine ⟨i, hi, h, ?_⟩
    rw [hget hi h, hr]
    exact routeEntry_indices depth s c k

/-- MM_COMPACT replaces the voice by the compacted one, whose count it puts in RESULT (R710). -/
theorem exec_mmCompact {voice : BitVec 8} (hv : voice.toNat < NVOICE) {s : State} (hs : Accepting s) {W : Voice}
    (hW : mmCompact s.patch.slotActive s.depth s.patch.mmBase s.voice[(⟨voice.toNat, hv⟩ : Fin NVOICE)] = W) :
    exec (.mmCompact voice 0#4) s = .next (withResult (withVoice s ⟨voice.toNat, hv⟩ W) W.mmCount) := by
  have hvoice := modVoice_voice_same ⟨voice.toNat, hv⟩ (mmCompact s.patch.slotActive s.depth s.patch.mmBase) s
  refine congrArg _ ((acceptVU_filter _ hv hs fun v s =>
    setResult (compactVoice v s).voice[v].mmCount (compactVoice v s)).trans ?_)
  rw [compactVoice, hvoice, modVoice_eq_withVoice, hW]
  rfl

/-- Settles O43: the list is the retained routes over the old one. -/
theorem mmCompactKeepsTheNonzeroRoutes : Obligations.MmCompactKeepsTheNonzeroRoutes := by
  unfold Obligations.MmCompactKeepsTheNonzeroRoutes
  intro s voice hv hs v
  exact ⟨_, _, routes_compacted s.patch s.depth s.voice[v].list, exec_mmCompact hv hs rfl⟩

/-! ### MM_APPLY -/

/-- The listed entries of a voice (R145). -/
def listed (V : Voice) : List Route := V.list.toList.take V.mmCount.toNat

theorem listed_inRange {V : Voice} (hV : ListValid V) : ∀ r ∈ listed V, routeInRange r := by
  intro r hr
  obtain ⟨hcount, hrange⟩ := hV
  obtain ⟨i, hi, rfl⟩ := List.mem_take_iff_getElem.1 hr
  have hi : i < V.mmCount.toNat := by omega
  exact hrange ⟨i, hi.trans_le hcount⟩ hi

/-- An entry of a route to destination (a, c). -/
def routesTo (a : Fin NSLOT) (c : Fin NCTRL) (r : Route) : Bool :=
  r.slot.toNat == a.val && r.control.toNat == c.val

/-- x with the contribution of entry r added (R720). -/
def addRoute (p : Patch) (V : Voice) (x : F32) (r : Route) : F32 :=
  fAdd x (fMul ((sources p V).getD r.source.toNat f0) r.depth)

theorem liveValue_eq (p : Patch) (V : Voice) (a : Fin NSLOT) (c : Fin NCTRL) :
    liveValue p V a c = ((listed V).filter (routesTo a c)).foldl (addRoute p V) p.mmBase[destIndex a c] := rfl

/-- The model's sources are the table's (R701). By `simp`, not `rfl`, which would unfold the division itself. -/
theorem sourceValue_eq_sources (p : Patch) (V : Voice) (k : Nat) : sourceValue p V k = (sources p V).getD k f0 := by
  unfold sourceValue sources
  match k with
  | 0 | 1 | 2 | 3 | 4 | 5 | 6 | 7 | 8 => simp only [List.getD_cons_succ, List.getD_cons_zero]
  | _ + 9 => simp only [List.getD_cons_succ, List.getD_nil]

/-- No two destinations share a live value (R129). -/
theorem destIndex_inj {a a' : Fin NSLOT} {c c' : Fin NCTRL} :
    (destIndex a c).val = (destIndex a' c').val ↔ a.val = a'.val ∧ c.val = c'.val := by
  have hc : c.val < 3 := c.isLt
  have hc' : c'.val < 3 := c'.isLt
  simp only [destIndex, NCTRL]
  omega

/-- An entry adds to the destination it names, and to no other (R720). -/
theorem applyRoute_get (p : Patch) (V : Voice) (live : Vector F32 NDEST) {r : Route} (hr : routeInRange r)
    (a : Fin NSLOT) (c : Fin NCTRL) :
    (applyRoute p V live r)[destIndex a c] =
      if routesTo a c r then addRoute p V live[destIndex a c] r else live[destIndex a c] := by
  obtain ⟨hslot, hctrl, hsrc⟩ := hr
  rw [applyRoute, dif_pos ⟨hslot, hctrl, hsrc⟩]
  by_cases hto : r.slot.toNat = a.val ∧ r.control.toNat = c.val
  · obtain ⟨ha, hc⟩ := hto
    have ha : (⟨r.slot.toNat, hslot⟩ : Fin NSLOT) = a := Fin.ext ha
    have hc : (⟨r.control.toNat, hctrl⟩ : Fin NCTRL) = c := Fin.ext hc
    rw [if_pos (by simp [routesTo, ← ha, ← hc]), ha, hc, addRoute, ← sourceValue_eq_sources]
    exact vmod_get_same live (destIndex a c) _
  · rw [if_neg (by simpa [routesTo] using hto)]
    exact vmod_get_other live _ _ _ _ (mt destIndex_inj.1 hto)

/-- A destination collects the contributions of the entries that name it, in list order (R720). -/
theorem foldl_applyRoute_get (p : Patch) (V : Voice) (a : Fin NSLOT) (c : Fin NCTRL) (l : List Route)
    (live : Vector F32 NDEST) (hl : ∀ r ∈ l, routeInRange r) :
    (l.foldl (applyRoute p V) live)[destIndex a c] =
      (l.filter (routesTo a c)).foldl (addRoute p V) live[destIndex a c] := by
  induction l generalizing live with
  | nil => rfl
  | cons r l ih =>
    obtain ⟨hr, hl⟩ := List.forall_mem_cons.1 hl
    rw [List.foldl_cons, ih _ hl, applyRoute_get p V live hr]
    by_cases hto : routesTo a c r = true
    · rw [if_pos hto, List.filter_cons_of_pos hto, List.foldl_cons]
    · rw [if_neg hto, List.filter_cons_of_neg hto]

theorem mmApply_live (p : Patch) {V : Voice} (hV : ListValid V) (a : Fin NSLOT) (c : Fin NCTRL) :
    (mmApply p V).live[destIndex a c] = liveValue p V a c := by
  rw [liveValue_eq]
  exact foldl_applyRoute_get p V a c (listed V) p.mmBase (listed_inRange hV)

/-- MM_APPLY replaces the live values of the voice, and puts its count in RESULT (R720). -/
theorem exec_mmApply {voice : BitVec 8} (hv : voice.toNat < NVOICE) {s : State} (hs : Accepting s) :
    exec (.mmApply voice 0#4) s = .next (withResult (withVoice s ⟨voice.toNat, hv⟩
      (mmApply s.patch s.voice[(⟨voice.toNat, hv⟩ : Fin NVOICE)]))
      s.voice[(⟨voice.toNat, hv⟩ : Fin NVOICE)].mmCount) :=
  congrArg _ (acceptVU_filter _ hv hs fun v s => setResult s.voice[v].mmCount (applyVoice v s))

/-- Settles O44: the model's fold over the whole list, seen from one destination. -/
theorem mmApplyRebuildsTheLiveValues : Obligations.MmApplyRebuildsTheLiveValues := by
  unfold Obligations.MmApplyRebuildsTheLiveValues
  intro s voice hv hs hlists v
  exact ⟨_, mmApply_live s.patch ((listsValid_iff s).1 hlists v), exec_mmApply hv hs⟩

/-! ### Depth zero (R731) -/

/-- After a compaction the listed entries are the retained routes (R710). -/
theorem listed_mmCompact (active : BitVec NSLOT) (depth : Vector F32 NROUTE) (base : Vector F32 NDEST) (V : Voice) :
    listed (mmCompact active depth base V) = routes depth active := by
  have hle := routes_length_le depth active
  have hcount : (mmCompact active depth base V).mmCount.toNat = (routes depth active).length := by
    simp only [mmCompact, BitVec.toNat_ofNat]
    exact Nat.mod_eq_of_lt (hle.trans_lt (by decide))
  rw [listed, hcount]
  exact take_overlay V.list hle

/-- No retained route leads to a destination without depth (R702). -/
theorem routesTo_eq_false_of_zero {depth : Vector F32 NROUTE} {a : Fin NSLOT} {c : Fin NCTRL}
    (hzero : ∀ k : Fin NSRC, fEq depth[routeIndex a c k] f0 = true) {active : BitVec NSLOT} {r : Route}
    (hr : r ∈ routes depth active) : ¬ routesTo a c r = true := by
  obtain ⟨s, c', k, -, hdepth, rfl⟩ := mem_routes.1 hr
  obtain ⟨hs, hc, -⟩ := routeEntry_indices depth s c' k
  intro hto
  obtain ⟨ha, hc'⟩ : s.val = a.val ∧ c'.val = c.val := by simpa [routesTo, hs, hc] using hto
  obtain rfl := Fin.ext ha
  obtain rfl := Fin.ext hc'
  exact absurd (hdepth.symm.trans (hzero k)) nofun

theorem liveValue_mmCompact_of_zero (p : Patch) {depth : Vector F32 NROUTE} {a : Fin NSLOT} {c : Fin NCTRL}
    (hzero : ∀ k : Fin NSRC, fEq depth[routeIndex a c k] f0 = true) (active : BitVec NSLOT)
    (base : Vector F32 NDEST) (V : Voice) :
    liveValue p (mmCompact active depth base V) a c = p.mmBase[destIndex a c] := by
  have hnone : (routes depth active).filter (routesTo a c) = [] :=
    List.filter_eq_nil_iff.2 fun _ hr => routesTo_eq_false_of_zero hzero hr
  rw [liveValue_eq, listed_mmCompact, hnone, List.foldl_nil]

/-- A command that replaces a voice and sets RESULT leaves the new voice where it was. -/
theorem withResult_withVoice_voice (s : State) (v : Fin NVOICE) (V : Voice) (w : Word) :
    (withResult (withVoice s v V) w).voice[v] = V := Vector.getElem_set_self v.isLt

/-- What MM_APPLY needs to know of the state a compaction leaves (R710). -/
theorem next_of_mmCompact {voice : BitVec 8} (hv : voice.toNat < NVOICE) {s t : State} (hs : Accepting s)
    (h : exec (.mmCompact voice 0#4) s = .next t) :
    Accepting t ∧ t.patch = s.patch ∧ t.voice[(⟨voice.toNat, hv⟩ : Fin NVOICE)] =
      mmCompact s.patch.slotActive s.depth s.patch.mmBase s.voice[(⟨voice.toNat, hv⟩ : Fin NVOICE)] := by
  rw [exec_mmCompact hv hs rfl] at h
  obtain rfl := Host.Outcome.next.inj h
  exact ⟨hs, rfl, withResult_withVoice_voice ..⟩

/-- Settles O45: an application after a compaction finds no entry for the destination. -/
theorem zeroDepthLeavesTheBaseValue : Obligations.ZeroDepthLeavesTheBaseValue := by
  unfold Obligations.ZeroDepthLeavesTheBaseValue
  intro s t u voice hv a c hs hzero ht hu
  obtain ⟨hidle, hpatch, hvoice⟩ := next_of_mmCompact hv hs ht
  rw [exec_mmApply hv hidle, hpatch, hvoice] at hu
  obtain rfl := Host.Outcome.next.inj hu
  rw [withResult_withVoice_voice, mmApply_live _ (mmCompact_listValid ..), liveValue_mmCompact_of_zero _ hzero]

end Sys2Proof.Proofs
end

section
/-! SUPPORT. RUN (44_scheduler.md R801-R803): its validation of an entry is R802's transcribed checks, so the first entry
they find bad is reported and a queue without one is passed. Settles O20 to O22. -/

namespace Sys2Proof.Proofs

-- One proof after another, as in the tests: proofs checked at once would hold too many threads.
set_option Elab.async false

open Sys2Proof.Machine Sys2Proof.Config Sys2Proof.Safety

/-! ### The fields of an entry (R320, R321) -/

theorem typeOf_toNat (w0 : Word) : (typeOf w0).toNat = w0.toNat / 2 ^ 28 := by
  rw [typeOf, toNat_extractLsb', bits]
  omega

theorem tickOf_toNat (w0 : Word) : (tickOf w0).toNat = w0.toNat / 2 ^ 16 % 2 ^ 12 := toNat_extractLsb' w0 16 12

theorem targetOf_toNat (w0 : Word) : (targetOf w0).toNat = w0.toNat % 2 ^ 16 := by
  rw [targetOf, toNat_extractLsb', bits, pow_zero, Nat.div_one]

theorem tickOf_entryWord0 (s : State) (q : Queue) (j : Nat) : (tickOf (entryWord0 s q j)).toNat = entryTick s q j :=
  tickOf_toNat _

/-! ### The address an automation event names (R322) -/

/-- What an automation event may write, by address: the patch registers and the depth table. -/
theorem decodeAddr_automatable_iff {a : Nat} (h4 : a % 4 = 0) :
    (decodeAddr a).any Loc.isAutomatable = true ↔ patchMapped a = true ∨ depthMapped a = true := by
  have hdepth : depthMapped a = true ↔ 0x800 ≤ a ∧ a < 0x9B0 := by
    simp [depthMapped, NROUTE, NSLOT, NCTRL, NSRC]
  have outside (ha : a < 0x100 ∨ (0x400 ≤ a ∧ a < 0x800) ∨ 0x1000 ≤ a) {o : Option Loc}
      (ho : ∀ l ∈ o, l.isAutomatable = false) :
      o.any Loc.isAutomatable = true ↔ patchMapped a = true ∨ depthMapped a = true := by
    have hnone : ¬ o.any Loc.isAutomatable = true := by cases o <;> simp_all
    rw [patchMapped_iff, hdepth]
    exact iff_of_false hnone (by omega)
  have array {n i : Nat} {f : Fin n → Loc} (hf : ∀ k, (f k).isAutomatable = false) :
      ∀ l ∈ element n i f, l.isAutomatable = false := by
    intro l hl
    obtain ⟨k, -, rfl⟩ := element_eq_some hl
    exact hf k
  apply decodeAddr_windows (P := fun o => o.any Loc.isAutomatable = true ↔ patchMapped a = true ∨ depthMapped a = true)
  case global =>
    intro _
    have single : ∀ p ∈ globalMap, p.2.isAutomatable = false := by decide
    exact outside (by omega) fun l hl => single _ (mem_of_lookup_eq_some hl)
  case gap => exact fun _ => outside (by omega) fun _ hl => nomatch hl
  case voiceFree | cc | midiQueue | atmQueue | out => exact fun _ _ => outside (by omega) (array fun _ => rfl)
  case patch =>
    intro hlo hhi
    have hsome : (decodePatch a).any Loc.isAutomatable = (decodePatch a).isSome := by
      cases h : decodePatch a with
      | none => rfl
      | some l => exact decodePatch_automatable h
    rw [hsome, decodePatch_isSome_iff h4 hlo, hdepth]
    exact (or_iff_left (by omega)).symm
  case depth =>
    intro hlo _
    have hpatch : ¬ patchMapped a = true := by rw [patchMapped_iff]; omega
    have hany : (element NROUTE ((a - 0x800) / 4) .depth).any Loc.isAutomatable =
        (element NROUTE ((a - 0x800) / 4) .depth).isSome := by
      unfold element
      split <;> rfl
    rw [hany, element_isSome_iff, hdepth, or_iff_right hpatch, NROUTE, NSLOT, NCTRL, NSRC]
    omega
  case wt =>
    intro bank _ _
    refine outside ?_ (array fun _ => rfl)
    unfold wtAddr at *
    split at * <;> omega
  case voice =>
    intro _
    refine outside (by omega) fun l hl => ?_
    split at hl
    · obtain ⟨r, -, rfl⟩ := Option.map_eq_some_iff.1 hl
      rfl
    · cases hl

theorem automationTarget_eq_filter (target : BitVec 16) :
    automationTarget target = (decodeAddr (4 * target.toNat)).filter Loc.isAutomatable := by
  unfold automationTarget
  cases decodeAddr (4 * target.toNat) <;> simp [Option.filter]

theorem automationTarget_isSome (target : BitVec 16) :
    (automationTarget target).isSome = !badTarget .automation 3 target.toNat := by
  rw [automationTarget_eq_filter, Option.isSome_filter, Bool.eq_iff_iff, decodeAddr_automatable_iff (by omega)]
  simp [badTarget]

/-! ### The checks of an entry (R802) -/

/-- NOTE_ON leaves bits [31:15] and [7] of VALUE unused (R322). -/
theorem noteOnValue_valid (x : Word) :
    (x &&& 0xFFFF8080#32 == 0#32) = !(x.toNat / 2 ^ 15 != 0 || x.toNat / 2 ^ 7 % 2 != 0) := by
  have hhigh : (x.toNat &&& 0xFFFF8080) / 2 ^ 15 = x.toNat / 2 ^ 15 := by
    rw [Nat.and_div_two_pow]
    exact (Nat.and_two_pow_sub_one_eq_mod _ 17).trans (Nat.mod_eq_of_lt (by omega))
  have hlow : (x.toNat &&& 0xFFFF8080) % 2 ^ 15 = x.toNat / 2 ^ 7 % 2 * 2 ^ 7 := by
    have hbit : x.toNat % 2 ^ 15 / 2 ^ 7 % 2 = x.toNat / 2 ^ 7 % 2 := by omega
    rw [Nat.and_mod_two_pow]
    refine (Nat.and_two_pow (x.toNat % 2 ^ 15) 7).trans ?_
    rw [Nat.testBit_eq_decide_div_mod_eq, hbit]
    rcases Nat.mod_two_eq_zero_or_one (x.toNat / 2 ^ 7) with h | h <;> rw [h] <;> rfl
  rw [Bool.eq_iff_iff, beq_iff_eq, ← BitVec.toNat_inj, BitVec.toNat_and]
  simp
  omega

/-- NOTE_OFF leaves bits [31:1] of VALUE unused (R322). -/
theorem noteOffValue_valid (x : Word) : (x &&& 0xFFFFFFFE#32 == 0#32) = !(x.toNat / 2 != 0) := by
  have hdiv : (x.toNat &&& 0xFFFFFFFE) / 2 = x.toNat / 2 := by
    rw [Nat.and_div_two]
    exact (Nat.and_two_pow_sub_one_eq_mod _ 31).trans (Nat.mod_eq_of_lt (by omega))
  have hmod : (x.toNat &&& 0xFFFFFFFE) % 2 = 0 := by simp [Nat.and_mod_two_pow (n := 1)]
  rw [Bool.eq_iff_iff, beq_iff_eq, ← BitVec.toNat_inj, BitVec.toNat_and]
  simp
  omega

/-- The queue does not accept the type (R321). -/
abbrev BadType (q : Queue) (type : Nat) : Prop :=
  (q = .midi ∧ (type = 0 ∨ 4 < type)) ∨ (q = .automation ∧ type ≠ 3)

/-- An entry that decodes has a type its queue accepts, and its event the target and the value of its words. -/
theorem decodeEvent_ok_valid {q : Queue} {w0 w1 : Word} {i : Instr} (h : decodeEvent q w0 w1 = .ok i) :
    ¬ BadType q (w0.toNat / 2 ^ 28) ∧
    eventTargetValid i = !badTarget q (w0.toNat / 2 ^ 28) (w0.toNat % 2 ^ 16) ∧
    eventValueValid i = !badValue q (w0.toNat / 2 ^ 28) w1.toNat := by
  have below (a n : Nat) : decide (a < n) = !decide (n ≤ a) := by rw [← decide_not, decide_eq_decide, Nat.not_le]
  unfold decodeEvent at h
  rw [typeOf_toNat] at h
  rw [← targetOf_toNat]
  split at h
  case h_6 => cases h
  all_goals
    rename_i htype
    cases h
    rw [htype]
  case h_1 => exact ⟨by simp, by simp [eventTargetValid, badTarget, below],
      (noteOnValue_valid w1).trans (by simp [badValue])⟩
  case h_2 => exact ⟨by simp, by simp [eventTargetValid, badTarget, below],
      (noteOffValue_valid w1).trans (by simp [badValue])⟩
  case h_3 => exact ⟨by simp, by simp [eventTargetValid, badTarget, below], rfl⟩
  case h_4 => exact ⟨by simp, rfl, rfl⟩
  case h_5 => exact ⟨by simp, automationTarget_isSome _, rfl⟩

theorem badType_of_decodeEvent_error {q : Queue} {w0 w1 : Word} {e : Reject} (h : decodeEvent q w0 w1 = .error e) :
    BadType q (w0.toNat / 2 ^ 28) := by
  unfold decodeEvent at h
  rw [typeOf_toNat] at h
  cases q
  · refine .inl ⟨rfl, ?_⟩
    by_contra hok
    obtain h' | h' | h' | h' : w0.toNat / 2 ^ 28 = 1 ∨ w0.toNat / 2 ^ 28 = 2 ∨ w0.toNat / 2 ^ 28 = 3 ∨
        w0.toNat / 2 ^ 28 = 4 := by omega
    all_goals rw [h'] at h; cases h
  · refine .inr ⟨rfl, fun hok => ?_⟩
    rw [hok] at h
    cases h

/-- The tick R802 compares that of entry `j` with. -/
def previousTick (s : State) (q : Queue) (j : Nat) : Nat := if j = 0 then 0 else entryTick s q (j - 1)

/-- The report on an entry (R901). -/
def entryReport (s : State) (q : Queue) (j : Nat) (c : Cause) : Violation :=
  { cause := c, info := entryWord0 s q j, loc := entryLoc q j }

/-- The model's checks of an entry are R802's. -/
theorem checkEntry_eq (s : State) (q : Queue) (j : Nat) : checkEntry s q j (previousTick s q j) =
    (entryFault s q j).elim (.ok (entryTick s q j)) fun c => .error (entryReport s q j c) := by
  have horder : (entryTick s q j < previousTick s q j) ↔ (j ≠ 0 ∧ entryTick s q j < entryTick s q (j - 1)) := by
    unfold previousTick
    split <;> simp [*]
  unfold checkEntry checkType entryFault
  simp only [tickOf_entryWord0, ← horder]
  match hd : decodeEvent q (entryWord0 s q j) (entryWord1 s q j) with
  | .error e =>
    have hbad := badType_of_decodeEvent_error hd
    rw [if_pos hbad]
    rfl
  | .ok i =>
    obtain ⟨htype, htarget, hvalue⟩ := decodeEvent_ok_valid hd
    rw [if_neg htype]
    dsimp only
    rw [htarget, hvalue]
    simp only [Bool.not_eq_false']
    split
    · rfl
    split
    · rfl
    split
    · rfl
    split <;> rfl

theorem entryFault_ne_none {s : State} {q : Queue} {j : Nat} {c : Cause} (h : entryFault s q j = some c) :
    c ≠ .none := by
  rintro rfl
  unfold entryFault at h
  dsimp only at h
  repeat' split at h
  all_goals cases h

/-! ### The checks of a queue (R802) -/

theorem checkEntry_ok {s : State} {q : Queue} {j : Nat} (h : entryFault s q j = none) :
    checkEntry s q j (previousTick s q j) = .ok (previousTick s q (j + 1)) := by
  rw [checkEntry_eq, h]
  rfl

theorem checkEntry_error {s : State} {q : Queue} {j : Nat} {c : Cause} (h : entryFault s q j = some c) :
    checkEntry s q j (previousTick s q j) = .error (entryReport s q j c) := by
  rw [checkEntry_eq, h]
  rfl

/-- A good entry is passed. -/
theorem checkEntries_cons {s : State} {q : Queue} {j : Nat} (n : Nat) (h : entryFault s q j = none) :
    checkEntries s q (n + 1) j (previousTick s q j) = checkEntries s q n (j + 1) (previousTick s q (j + 1)) := by
  rw [checkEntries, checkEntry_ok h]

/-- A queue without a bad entry is passed. -/
theorem checkEntries_ok {s : State} {q : Queue} {n j : Nat} (h : ∀ k, j ≤ k → k < j + n → entryFault s q k = none) :
    checkEntries s q n j (previousTick s q j) = .ok (previousTick s q (j + n)) := by
  induction n generalizing j with
  | zero => rfl
  | succ n ih =>
    rw [checkEntries_cons n (h j le_rfl (by omega)), ih fun k hk hkn => h k (by omega) (by omega)]
    congr 2
    omega

/-- The first bad entry is reported. -/
theorem checkEntries_error {s : State} {q : Queue} {n j m : Nat} {c : Cause} (hm : m < n)
    (hgood : ∀ k, j ≤ k → k < j + m → entryFault s q k = none) (hbad : entryFault s q (j + m) = some c) :
    checkEntries s q n j (previousTick s q j) = .error (entryReport s q (j + m) c) := by
  induction m generalizing n j with
  | zero =>
    obtain ⟨n, rfl⟩ := Nat.exists_eq_add_of_lt hm
    have hfirst : checkEntry s q j (previousTick s q j) = .error (entryReport s q j c) := checkEntry_error hbad
    rw [checkEntries, hfirst]
    rfl
  | succ m ih =>
    obtain ⟨n, rfl⟩ := Nat.exists_eq_add_of_lt hm
    have hshift : j + (m + 1) = j + 1 + m := by omega
    rw [checkEntries_cons _ (hgood j le_rfl (by omega)),
      ih (by omega) (fun k hk hkm => hgood k (by omega) (by omega)) (by rwa [← hshift]), hshift]

/-- Whatever a queue's checks report, it is a cause (R901). -/
theorem checkEntries_error_cause {s : State} {q : Queue} {n j : Nat} {e : Violation}
    (h : checkEntries s q n j (previousTick s q j) = .error e) : e.cause ≠ .none := by
  induction n generalizing j with
  | zero => cases h
  | succ n ih =>
    match hj : entryFault s q j with
    | none =>
      rw [checkEntries_cons n hj] at h
      exact ih h
    | some c =>
      rw [checkEntries, checkEntry_error hj] at h
      cases h
      exact entryFault_ne_none hj

/-! ### The checks of RUN (R802) -/

/-- With legal lengths the queues are left to check, MQ first. -/
theorem validate_of_lengths {s : State} (h : LengthsValid s) : validate s =
    (checkEntries s .midi s.midiCount.toNat 0 (previousTick s .midi 0)).bind fun m =>
      (checkEntries s .automation s.atmCount.toNat 0 (previousTick s .automation 0)).bind fun a => .ok (m, a) := by
  obtain ⟨hpos, hmax, hmidi, hatm⟩ := h
  have hlen : ¬ (s.blockLen = 0#32 ∨ MAX_BLOCK < s.blockLen.toNat) := by
    rw [← BitVec.toNat_inj, BitVec.toNat_ofNat]
    omega
  rw [validate, if_neg hlen, if_neg (by omega), if_neg (by omega), previousTick, if_pos rfl, previousTick, if_pos rfl]
  cases checkEntries s .midi s.midiCount.toNat 0 0 with
  | error e => rfl
  | ok m => cases checkEntries s .automation s.atmCount.toNat 0 0 <;> rfl

theorem validate_badLength {s : State} (h : s.blockLen.toNat = 0 ∨ MAX_BLOCK < s.blockLen.toNat) :
    validate s = .error { cause := .badBlockLen, info := s.blockLen, loc := 0#32 } := by
  rw [validate, if_pos]
  rw [← BitVec.toNat_inj]
  exact h

theorem validate_midiOverflow {s : State} (hpos : 1 ≤ s.blockLen.toNat) (hmax : s.blockLen.toNat ≤ MAX_BLOCK)
    (h : EVQ_CAP < s.midiCount.toNat) :
    validate s = .error { cause := .eventOverflow, info := s.midiCount, loc := 0#32 } := by
  rw [validate, if_neg, if_pos h]
  · rfl
  · rw [← BitVec.toNat_inj, BitVec.toNat_ofNat]
    omega

theorem validate_atmOverflow {s : State} (hpos : 1 ≤ s.blockLen.toNat) (hmax : s.blockLen.toNat ≤ MAX_BLOCK)
    (hmidi : s.midiCount.toNat ≤ EVQ_CAP) (h : EVQ_CAP < s.atmCount.toNat) :
    validate s = .error { cause := .eventOverflow, info := s.atmCount, loc := 0x2000#32 } := by
  rw [validate, if_neg, if_neg (by omega), if_pos h]
  · rfl
  · rw [← BitVec.toNat_inj, BitVec.toNat_ofNat]
    omega

/-- All that RUN's validation can find: one of the lengths is bad, or it passes on to the queues. -/
theorem lengths_cases (s : State) :
    (s.blockLen.toNat = 0 ∨ MAX_BLOCK < s.blockLen.toNat) ∨
    (1 ≤ s.blockLen.toNat ∧ s.blockLen.toNat ≤ MAX_BLOCK ∧ EVQ_CAP < s.midiCount.toNat) ∨
    (1 ≤ s.blockLen.toNat ∧ s.blockLen.toNat ≤ MAX_BLOCK ∧ s.midiCount.toNat ≤ EVQ_CAP ∧
      EVQ_CAP < s.atmCount.toNat) ∨ LengthsValid s := by
  unfold LengthsValid
  omega

theorem lengthsValid_of_validate {s : State} {ticks : Nat × Nat} (h : validate s = .ok ticks) : LengthsValid s := by
  rcases lengths_cases s with hlen | ⟨hpos, hmax, hmidi⟩ | ⟨hpos, hmax, hmidi, hatm⟩ | hs
  · rw [validate_badLength hlen] at h; cases h
  · rw [validate_midiOverflow hpos hmax hmidi] at h; cases h
  · rw [validate_atmOverflow hpos hmax hmidi hatm] at h; cases h
  · exact hs

/-- Whatever RUN's validation reports, it is a cause (R901). -/
theorem validate_error_cause {s : State} {e : Violation} (h : validate s = .error e) : e.cause ≠ .none := by
  rcases lengths_cases s with hlen | ⟨hpos, hmax, hmidi⟩ | ⟨hpos, hmax, hmidi, hatm⟩ | hs
  · rw [validate_badLength hlen] at h; cases h; exact nofun
  · rw [validate_midiOverflow hpos hmax hmidi] at h; cases h; exact nofun
  · rw [validate_atmOverflow hpos hmax hmidi hatm] at h; cases h; exact nofun
  · rw [validate_of_lengths hs] at h
    match hm : checkEntries s .midi s.midiCount.toNat 0 (previousTick s .midi 0) with
    | .error e' =>
      rw [hm] at h
      cases h
      exact checkEntries_error_cause hm
    | .ok m =>
      match ha : checkEntries s .automation s.atmCount.toNat 0 (previousTick s .automation 0) with
      | .error e' =>
        rw [hm, ha] at h
        cases h
        exact checkEntries_error_cause ha
      | .ok a =>
        rw [hm, ha] at h
        cases h

/-! ### The statements -/

theorem acceptG_ok (c : Word) (f : State → State) {s : State} (hs : Accepting s) : acceptG c f s = f s := by
  obtain ⟨hf, hb⟩ := hs
  simp [acceptG, hf, hb]

theorem exec_run_error {s : State} {e : Violation} (hs : Accepting s) (h : validate s = .error e) :
    exec .run s = .next (raise e.cause e.info e.loc s) := by
  refine congrArg _ ((acceptG_ok _ _ hs).trans ?_)
  rw [runCommand, h]

theorem exec_run_ok {s : State} {ticks : Nat × Nat} (hs : Accepting s) (h : validate s = .ok ticks) :
    exec .run s = .next (startBlock ticks s) := by
  refine congrArg _ ((acceptG_ok _ _ hs).trans ?_)
  rw [runCommand, h]

/-- A queue without a bad entry passes its checks from the first entry on. -/
theorem checkEntries_all {s : State} {q : Queue} {n : Nat} (h : ∀ j, j < n → entryFault s q j = none) :
    checkEntries s q n 0 (previousTick s q 0) = .ok (previousTick s q n) := by
  rw [checkEntries_ok fun k _ hk => h k (by omega), Nat.zero_add]

/-- The first bad entry of a queue is what its checks report. -/
theorem checkEntries_first {s : State} {q : Queue} {n j : Nat} {c : Cause} (hj : j < n)
    (hgood : ∀ k, k < j → entryFault s q k = none) (hbad : entryFault s q j = some c) :
    checkEntries s q n 0 (previousTick s q 0) = .error (entryReport s q j c) := by
  have h := checkEntries_error (s := s) (q := q) (j := 0) hj (fun k _ hk => hgood k (by omega))
    (by rwa [Nat.zero_add])
  rwa [Nat.zero_add] at h

/-- Settles O21: the checks of the lengths stand first, in this order. -/
theorem runRefusesBadLengths : Obligations.RunRefusesBadLengths := by
  unfold Obligations.RunRefusesBadLengths
  intro s hs
  exact ⟨fun hlen => exec_run_error hs (validate_badLength hlen),
    fun hpos hmax hmidi => exec_run_error hs (validate_midiOverflow hpos hmax hmidi),
    fun hpos hmax hmidi hatm => exec_run_error hs (validate_atmOverflow hpos hmax hmidi hatm)⟩

/-- Settles O20: both queues pass, and the block starts. -/
theorem runStartsAValidBlock : Obligations.RunStartsAValidBlock := by
  unfold Obligations.RunStartsAValidBlock
  intro s hs hlen hmidi hatm
  have hvalid := validate_of_lengths hlen
  rw [checkEntries_all hmidi, checkEntries_all hatm] at hvalid
  exact ⟨_, _, exec_run_ok hs hvalid⟩

/-- ERR_LOC of an entry of a queue of legal length (R901). -/
theorem entryLoc_eq (q : Queue) {j : Nat} (hj : j < EVQ_CAP) :
    entryLoc q j = BitVec.ofNat 32 (j + queueBit q * 2 ^ 13) := by
  rw [entryLoc, Nat.mod_eq_of_lt (hj.trans (by decide))]

/-- Settles O22: the model checks the entries in the order of R802, and reports the first bad one. -/
theorem runRefusesTheFirstBadEntry : Obligations.RunRefusesTheFirstBadEntry := by
  unfold Obligations.RunRefusesTheFirstBadEntry
  intro s j c hs hlen
  have hvalid := validate_of_lengths hlen
  obtain ⟨-, -, hmidiCap, hatmCap⟩ := hlen
  constructor
  · intro hj hgood hbad
    rw [checkEntries_first hj hgood hbad] at hvalid
    have hloc : entryLoc .midi j = BitVec.ofNat 32 j := entryLoc_eq .midi (hj.trans_le hmidiCap)
    rw [exec_run_error hs hvalid, ← hloc]
    rfl
  · intro hmidi hj hgood hbad
    rw [checkEntries_all hmidi, checkEntries_first hj hgood hbad] at hvalid
    have hloc : entryLoc .automation j = BitVec.ofNat 32 (j + 0x2000) := entryLoc_eq .automation (hj.trans_le hatmCap)
    rw [exec_run_error hs hvalid, ← hloc]
    rfl

end Sys2Proof.Proofs
end

section
/-! SUPPORT. The global commands (44_scheduler.md R840-R844) and the note operations (R830, R832), by command and by
event (R821, R822): what each leaves of every voice. Settles O19, O23 to O27. -/

namespace Sys2Proof.Proofs

-- One proof after another, as in the tests: proofs checked at once would hold too many threads.
set_option Elab.async false

open Sys2Proof.Machine Sys2Proof.Config Sys2Proof.Safety

/-! ### Global commands -/

/-- Settles O19. -/
theorem nopChangesNothing : Obligations.NopChangesNothing := fun _ => rfl

/-- An operation on every envelope of every voice changes nothing else. -/
theorem modAllEnvs_spec (f : Env → Env) (s : State) :
    { modAllEnvs f s with voice := s.voice } = s ∧
    ∀ v : Fin NVOICE, { (modAllEnvs f s).voice[v] with env := s.voice[v].env } = s.voice[v] ∧
      ∀ e : Fin NENV, (modAllEnvs f s).voice[v].env[e] = f s.voice[v].env[e] := by
  refine ⟨rfl, fun v => ?_⟩
  have hv : (modAllEnvs f s).voice[v] = { s.voice[v] with env := vmap f s.voice[v].env } :=
    vmap_get _ s.voice v.val v.isLt
  rw [hv]
  exact ⟨rfl, fun e => vmap_get f s.voice[v].env e.val e.isLt⟩

/-- Settles O23: PANIC is looked at by its two states. -/
theorem panicKillsEveryEnvelope : Obligations.PanicKillsEveryEnvelope := by
  unfold Obligations.PanicKillsEveryEnvelope
  intro s hf
  constructor
  · intro hb
    have hidle : exec .panic s = .next (modAllEnvs envKill s) := by simp [exec, execPanic, hf, hb, panicKill]
    exact ⟨_, hidle, modAllEnvs_spec envKill s⟩
  · intro hb
    simp [exec, execPanic, hf, hb]

/-- Settles O24: the model's release of one envelope is R422's. -/
theorem allNotesOffReleasesEveryEnvelope : Obligations.AllNotesOffReleasesEveryEnvelope := by
  unfold Obligations.AllNotesOffReleasesEveryEnvelope
  intro s hs
  have hrelease : envRelease = released := funext envRelease_eq_released
  have hexec : exec .allNotesOff s = .next (modAllEnvs released s) := by
    rw [← hrelease]
    exact congrArg _ (acceptG_ok _ _ hs)
  exact ⟨_, hexec, modAllEnvs_spec released s⟩

/-- Settles O25: both states that let ERR_CLEAR through leave the fault state. -/
theorem errClearLeavesTheFaultState : Obligations.ErrClearLeavesTheFaultState := by
  unfold Obligations.ErrClearLeavesTheFaultState
  intro s h
  have hclear : exec .errClear s = .next (clearFault s) := by
    cases hf : s.fault with
    | true => simp [exec, execErrClear, hf]
    | false =>
      have hb : s.busy = false := h.resolve_left (by simp [hf])
      simp [exec, execErrClear, hf, hb]
  exact hclear

/-! ### An operation on one voice -/

/-- An operation on voice v leaves every other voice and everything that is no voice. -/
theorem modVoice_elsewhere (v : Fin NVOICE) (f : Voice → Voice) (s : State) :
    (∀ w : Fin NVOICE, w ≠ v → (modVoice v f s).voice[w] = s.voice[w]) ∧
    { modVoice v f s with voice := s.voice } = s :=
  ⟨fun w hw => modVoice_voice_other v w f s hw, rfl⟩

/-- A command on the one unit of an existing voice, by the number of that voice (R301 step 7). -/
theorem acceptVU_voice (c : Word) {voice : BitVec 8} {v : Fin NVOICE} (hv : voice.toNat = v.val) {s : State}
    (hs : Accepting s) (f : Fin NVOICE → State → State) : acceptVU c voice 0#4 1 (fun v _ s => f v s) s = f v s := by
  rw [acceptVU_filter c (hv ▸ v.isLt) hs f]
  exact congrArg (f · s) (Fin.ext hv)

/-- An event on an existing voice (R820). -/
theorem onVoice_ok {target : BitVec 16} {v : Fin NVOICE} (hv : target.toNat = v.val) (f : Fin NVOICE → State → State)
    (s : State) : onVoice target f s = f v s := by
  rw [onVoice, dif_pos (hv ▸ v.isLt)]
  exact congrArg (f · s) (Fin.ext hv)

/-! ### NOTE_OFF (R832, R822) -/

/-- What a note-off does to one envelope. -/
def noteOffEnv (s : State) (fast : Bool) (E : Env) : Env :=
  if fast then fastReleased s.sampleRate s.patch.fastRTime E else released E

theorem noteOffOp_eq (v : Fin NVOICE) (fast : Bool) (s : State) :
    noteOffOp v fast s = modVoice v (fun V => { V with env := vmap (noteOffEnv s fast) V.env }) s := by
  have henv : (if fast then envFastRelease s.sampleRate s.patch.fastRTime else envRelease) = noteOffEnv s fast := by
    funext E
    cases fast
    · exact envRelease_eq_released E
    · exact envFastRelease_eq_fastReleased _ _ E
  rw [← henv]
  rfl

/-- Settles O27: the command and the event are the one operation. -/
theorem noteOffReleasesTheVoice : Obligations.NoteOffReleasesTheVoice := by
  unfold Obligations.NoteOffReleasesTheVoice
  intro s v fast ended
  have hended : ended (noteOffOp v fast s) := by
    obtain ⟨hother, hframe⟩ := modVoice_elsewhere v (fun V => { V with env := vmap (noteOffEnv s fast) V.env }) s
    show _ ∧ _ ∧ _
    rw [noteOffOp_eq, modVoice_voice_same]
    exact ⟨hother, hframe, rfl, fun e => vmap_get _ s.voice[v].env e.val e.isLt⟩
  constructor
  · intro voice hv hs
    exact ⟨_, congrArg Host.Outcome.next (acceptVU_voice _ hv hs fun v => noteOffOp v fast), hended⟩
  · rintro tick target value hv rfl
    exact ⟨_, congrArg Host.Outcome.next (onVoice_ok hv (fun v => noteOffOp v _) s), hended⟩

/-! ### NOTE_ON (R830, R821) -/

/-- An operation on each element of a list in turn: no element's depends on another's. -/
theorem foldl_vmod_get {α : Type} {n : Nat} (g : Fin n → α → α) {l : List (Fin n)} (hl : l.Nodup) (xs : Vector α n)
    (i : Fin n) : (l.foldl (fun xs i => vmod xs i (g i)) xs)[i] = if i ∈ l then g i xs[i] else xs[i] := by
  induction l generalizing xs with
  | nil => rfl
  | cons k l ih =>
    obtain ⟨hk, hl⟩ := List.nodup_cons.1 hl
    rw [List.foldl_cons, ih hl]
    by_cases hik : i = k
    · subst hik
      rw [if_neg hk, if_pos List.mem_cons_self]
      exact vmod_get_same xs i (g i)
    · have hget : (vmod xs k (g k))[i] = xs[i] :=
        vmod_get_other xs k (g k) i.val i.isLt fun h => hik (Fin.ext h.symm)
      simp only [hget, List.mem_cons, hik, false_or]

/-- The trigger at note-on is the one its delay selects (R830). -/
theorem noteOnEnv_eq (s : State) (e : Fin NENV) (E : Env) :
    noteOnEnv s.sampleRate s.patch.envDbFloor s.patch.env[e] E = noteOnEnvelope s e E := by
  have hdelay : (0#32 < s.patch.env[e].delay) ↔ (0 < s.patch.env[e].delay.toNat) := Iff.rfl
  unfold noteOnEnv noteOnEnvelope
  simp only [hdelay]
  split <;> rfl

theorem noteOnEnvs_get (s : State) (env : Vector Env NENV) (e : Fin NENV) :
    (noteOnEnvs s.sampleRate s.patch env)[e] = noteOnEnvelope s e env[e] := by
  rw [noteOnEnvs, foldl_vmod_get _ (List.nodup_finRange _), if_pos (List.mem_finRange e), noteOnEnv_eq]

theorem modVoice_modVoice (v : Fin NVOICE) (f g : Voice → Voice) (s : State) :
    modVoice v g (modVoice v f s) = modVoice v (fun V => g (f V)) s := by
  simp [modVoice, vmod]

/-- The voice NOTE_ON_OP leaves: set up, then compacted (R830). -/
def noteOnCompacted (s : State) (note vel : Nat) (V : Voice) : Voice :=
  mmCompact s.patch.slotActive s.depth s.patch.mmBase (noteOnVoice s.sampleRate s.patch note vel V)

theorem noteOnOp_eq (v : Fin NVOICE) (note vel : Nat) (s : State) :
    noteOnOp v note vel s = modVoice v (noteOnCompacted s note vel) s := modVoice_modVoice v _ _ s

/-- A compaction counts the routes it retains (R710). -/
theorem mmCompact_count (active : BitVec NSLOT) (depth : Vector F32 NROUTE) (base : Vector F32 NDEST) (V : Voice) :
    (mmCompact active depth base V).mmCount.toNat = (routes depth active).length := by
  simp only [mmCompact, BitVec.toNat_ofNat]
  exact Nat.mod_eq_of_lt ((routes_length_le depth active).trans_lt (by decide))

/-- The clamp of the operands (R830). -/
theorem uclamp_127 (x : Word) : (uclamp x 0#32 127#32).toNat = min x.toNat 127 := by
  have hlow : ¬ x < 0#32 := by simp
  rw [uclamp, if_neg hlow]
  split
  next h =>
    have : 127 < x.toNat := h
    rw [min_eq_right (by omega)]
    rfl
  next h =>
    have : ¬ 127 < x.toNat := h
    omega

/-- The list at note-on is the retained routes over the old one: the set-up before it leaves it alone. -/
theorem noteOnCompacted_list (s : State) (note vel : Nat) (V : Voice) :
    Compacted s.patch s.depth V.list (noteOnCompacted s note vel V).list
      (noteOnCompacted s note vel V).mmCount.toNat := by
  obtain ⟨-, hkeep⟩ := noteOnVoice_keepsList s.sampleRate s.patch note vel V
  rw [noteOnCompacted, mmCompact_count, mmCompact, hkeep]
  exact routes_compacted s.patch s.depth V.list

/-- A note-on by command (R830). -/
theorem exec_noteOn {voice : BitVec 8} {v : Fin NVOICE} (hv : voice.toNat = v.val) {s : State} (hs : Accepting s) :
    exec (.noteOn voice 0#4) s = .next (noteOnOp v (min s.arg[0].toNat 127) (min s.arg[1].toNat 127) s) := by
  rw [← uclamp_127, ← uclamp_127]
  exact congrArg Host.Outcome.next (acceptVU_voice _ hv hs fun v s =>
    noteOnOp v (uclamp s.arg[0] 0#32 127#32).toNat (uclamp s.arg[1] 0#32 127#32).toNat s)

/-- A note-on by event (R821). -/
theorem exec_evNoteOn (tick : BitVec 12) {target : BitVec 16} (value : Word) {v : Fin NVOICE}
    (hv : target.toNat = v.val) (s : State) : exec (.evNoteOn tick target value) s =
      .next (noteOnOp v (value.toNat % 2 ^ 7) (value.toNat / 2 ^ 8 % 2 ^ 7) s) := by
  have hnote : (value.extractLsb' 0 7).toNat = value.toNat % 2 ^ 7 := by
    rw [toNat_extractLsb', bits, pow_zero, Nat.div_one]
  have hvel : (value.extractLsb' 8 7).toNat = value.toNat / 2 ^ 8 % 2 ^ 7 := toNat_extractLsb' value 8 7
  rw [← hnote, ← hvel]
  exact congrArg Host.Outcome.next (onVoice_ok hv (fun v => noteOnOp v _ _) s)

/-- Settles O26: the command and the event are the one operation. -/
theorem noteOnStartsTheVoice : Obligations.NoteOnStartsTheVoice := by
  unfold Obligations.NoteOnStartsTheVoice
  intro s v started
  have hstarted (note vel : Nat) : started note vel (noteOnOp v note vel s) := by
    obtain ⟨hother, hframe⟩ := modVoice_elsewhere v (noteOnCompacted s note vel) s
    rw [noteOnOp_eq]
    show _ ∧ _ ∧ _
    rw [modVoice_voice_same]
    exact ⟨hother, hframe, rfl, rfl, rfl, fun o => vmap_get oscReset s.voice[v].osc o.val o.isLt, rfl,
      noteOnEnvs_get s s.voice[v].env, rfl, rfl, noteOnCompacted_list s note vel s.voice[v]⟩
  exact ⟨fun voice hv hs => ⟨_, exec_noteOn hv hs, hstarted _ _⟩,
    fun tick target value hv => ⟨_, exec_evNoteOn tick value hv s, hstarted _ _⟩⟩

end Sys2Proof.Proofs
end

section
/-! SUPPORT. Events (44_scheduler.md R820-R825): what a CONTROLLER, a PITCH_BEND and an automation event write, and which
entries of a queue a sample dispatches. Settles O5, O46 and O47. -/

namespace Sys2Proof.Proofs

-- One proof after another, as in the tests: proofs checked at once would hold too many threads.
set_option Elab.async false

open Sys2Proof.Machine Sys2Proof.Config Sys2Proof.Safety

/-! ### One event -/

/-- Settles O46: the CC number is the one fault of a controller event, and validation has excluded it. -/
theorem controllerAndPitchBendWriteTheirRegister : Obligations.ControllerAndPitchBendWriteTheirRegister := by
  unfold Obligations.ControllerAndPitchBendWriteTheirRegister
  intro s tick target value
  exact ⟨fun h => congrArg Host.Outcome.next (dif_pos h), rfl⟩

/-- A target that validation passes names a location an automation event may write (R322). -/
theorem automationTarget_of_valid {target : BitVec 16} (h : badTarget .automation 3 target.toNat = false) :
    ∃ l, automationTarget target = some l ∧ decodeAddr (4 * target.toNat) = some l ∧ l.isAutomatable = true := by
  have hsome : (automationTarget target).isSome = true := by rw [automationTarget_isSome, h]; rfl
  obtain ⟨l, hl⟩ := Option.isSome_iff_exists.1 hsome
  have hfilter := hl
  rw [automationTarget_eq_filter, Option.filter_eq_some_iff] at hfilter
  exact ⟨l, hl, hfilter⟩

theorem exec_evAutomation (tick : BitVec 12) {target : BitVec 16} {l : Loc} (h : automationTarget target = some l)
    (value : Word) (s : State) : exec (.evAutomation tick target value) s = .next (writeLoc s value l) := by
  simp only [exec, execEvAutomation, h]

/-- The write of an automation event does not look at BUSY (R824). -/
theorem writeLoc_automatable_idle {l : Loc} (h : l.isAutomatable = true) (x : Word) (s : State) :
    writeLoc { s with busy := false } x l = { writeLoc s x l with busy := false } := by
  cases l
  case envPatch | oscPatch | fltCfg | fltCutoff | fltResDb | fltEqGainDb | fltEnvAmt | slotActive | mmBase | macroVal
    | lfoIn | fastRTime | waitSamples | envDbFloor | depth => rfl
  all_goals cases h

theorem plain_of_automatable {l : Loc} (h : l.isAutomatable = true) : plain l = true := by
  cases l
  case cmd | wtLock => cases h
  all_goals rfl

/-- Settles O47: the event and the host's write reach the same location of the address map. -/
theorem automationWritesLikeAnIdleHost : Obligations.AutomationWritesLikeAnIdleHost := by
  unfold Obligations.AutomationWritesLikeAnIdleHost
  intro s tick target value hvalid
  obtain ⟨l, hl, hdecode, hauto⟩ := automationTarget_of_valid hvalid
  have haddr : (BitVec.ofNat 32 (4 * target.toNat)).toNat = 4 * target.toNat := by
    rw [BitVec.toNat_ofNat]
    omega
  refine ⟨_, exec_evAutomation tick hl value s, ?_, ?_⟩
  · rw [busWrite_mapped value _ (by omega) (haddr ▸ hdecode) (.inl rfl),
      storeLoc_plain _ _ (plain_of_automatable hauto), writeLoc_automatable_idle hauto]
  · obtain ⟨p, d, hframe⟩ := writeLoc_automatable_frame l value s hauto
    rw [hframe]

/-! ### The due entries of a queue (R805 step 2) -/

theorem bindNext_assoc (o : Host.Outcome State Fault Refusal) (f g : State → Host.Outcome State Fault Refusal) :
    bindNext (bindNext o f) g = bindNext o fun s => bindNext (f s) g := by
  cases o <;> rfl

theorem entryDue_iff (q : Queue) (s : State) :
    entryDue q s = true ↔ entryTick s q (cursor q s).toNat = s.schedI.toNat := by
  rw [entryDue, tickOf_entryWord0, beq_iff_eq]

/-- A due entry is dispatched, and the cursor moves past it. -/
theorem drain_due {q : Queue} {s : State} (n : Nat) (h : entryTick s q (cursor q s).toNat = s.schedI.toNat) :
    drain q (n + 1) s = bindNext (dispatch q (cursor q s).toNat s) fun t => drain q n (advance q t) := by
  rw [drain, if_pos ((entryDue_iff q s).2 h)]

/-- An entry that is not due ends the queue's turn. -/
theorem drain_notDue {q : Queue} {s : State} (n : Nat) (h : entryTick s q (cursor q s).toNat ≠ s.schedI.toNat) :
    drain q n s = .next s := by
  cases n with
  | zero => rfl
  | succ n => rw [drain, if_neg (mt (entryDue_iff q s).1 h)]

theorem drainQueue_noneDue {q : Queue} {s : State} (h : NoneDue s q) : drainQueue q s = .next s := by
  rw [drainQueue]
  by_cases hleft : (cursor q s).toNat < (queueCount q s).toNat
  · exact drain_notDue _ (h hleft)
  · rw [Nat.sub_eq_zero_of_le (by omega)]
    rfl

theorem dispatch_ok {q : Queue} {j : Nat} {s : State} {i : Instr}
    (h : decode (.queue q) [entryWord0 s q j, entryWord1 s q j] = .ok i) : dispatch q j s = exec i s := by
  have hdecode : decodeEvent q (entryWord0 s q j) (entryWord1 s q j) = .ok i := h
  rw [dispatch, hdecode]

/-- The entry at the cursor, if it is due, is the first the queue's turn runs. -/
theorem drainQueue_due {q : Queue} {s : State} {left : Nat} {i : Instr}
    (hleft : (queueCount q s).toNat = (cursor q s).toNat + left + 1)
    (hdue : entryTick s q (cursor q s).toNat = s.schedI.toNat)
    (hi : decode (.queue q) [entryWord0 s q (cursor q s).toNat, entryWord1 s q (cursor q s).toNat] = .ok i) :
    drainQueue q s = bindNext (exec i s) fun t => drain q left (advance q t) := by
  have hn : (queueCount q s).toNat - (cursor q s).toNat = left + 1 := by omega
  rw [drainQueue, hn, drain_due left hdue, dispatch_ok hi]

/-! ### The scheduler's turn in a block -/

/-- The state in which the events of a sample run: the turn is taken and the swap checked. -/
def eventsStart (s : State) : State := swapCheck (turnTaken s)

/-- The swap check changes nothing the queues' turns look at (R233). -/
theorem eventsStart_frame (s : State) : ∃ b r q, eventsStart s =
    { s with agenda := s.agenda.tail, activeBank := b, swapReq := r, irqStatus := q } := by
  obtain ⟨b, r, q, h⟩ := swapCheck_frame (turnTaken s)
  exact ⟨b, r, q, h⟩

theorem step_sample {s : State} (hnext : SchedulerNext s) (hb : s.busy = true) :
    step s = bindNext (drainQueue .midi (eventsStart s)) fun a =>
      bindNext (drainQueue .automation a) fun b => .next (soundSample b) := by
  rw [step_of_schedulerNext hnext, scheduler, if_pos (show (turnTaken s).busy = true from hb)]
  rfl

/-- Settles O5: the queue's turn begins with the due entry at its cursor. -/
theorem sampleRunsTheDecodedEvent : Obligations.SampleRunsTheDecodedEvent := by
  unfold Obligations.SampleRunsTheDecodedEvent
  intro s i hnext hb
  rw [step_sample hnext hb]
  obtain ⟨b, r, w, hstart⟩ := eventsStart_frame s
  have hswap : swapCheck (turnTaken s) = eventsStart s := rfl
  rw [hswap]
  constructor
  · intro left hleft hdue hi
    rw [drainQueue_due (q := .midi) (s := eventsStart s) (by rw [hstart]; exact hleft) (by rw [hstart]; exact hdue)
      (by rw [hstart]; exact hi), bindNext_assoc]
  · intro left hnone hleft hdue hi
    have hmidi : drainQueue .midi (eventsStart s) = .next (eventsStart s) :=
      drainQueue_noneDue (by rw [hstart]; exact hnone)
    rw [hmidi]
    show bindNext (drainQueue .automation (eventsStart s)) _ = _
    rw [drainQueue_due (q := .automation) (s := eventsStart s) (by rw [hstart]; exact hleft)
      (by rw [hstart]; exact hdue) (by rw [hstart]; exact hi), bindNext_assoc]

end Sys2Proof.Proofs
end

section
/-! SUPPORT. One sample (44_scheduler.md R805, R807), said once: how far the events of a queue go, and what is left of a
sample after them. -/

namespace Sys2Proof.Proofs

-- One proof after another, as in the tests: proofs checked at once would hold too many threads.
set_option Elab.async false

open Sys2Proof.Machine Sys2Proof.Config Sys2Proof.Safety

/-! ### The events of a queue (R805 step 2) -/

/-- `s` with the cursor of a queue at entry `m`. -/
def withCursor (q : Queue) (m : Word) (s : State) : State :=
  match q with
  | .midi => { s with mcur := m }
  | .automation => { s with acur := m }

/-- `t` differs from `s` only in what the events of queue `q` write: voices, patch registers, depths, the CC table,
PITCH_BEND and the queue's cursor (R250). -/
def EventChange (q : Queue) (s t : State) : Prop := ∃ V p d c b m, t =
  withCursor q m { s with voice := V, patch := p, depth := d, cc := c, pitchBend := b }

/-- Queue `q` with at most `n` entries left has been worked off from `s` to `t`. -/
structure Drained (q : Queue) (n : Nat) (s t : State) : Prop where
  frame : EventChange q s t
  from_cursor : (cursor q s).toNat ≤ (cursor q t).toNat
  to_end : (cursor q t).toNat ≤ (cursor q s).toNat + n
  due : ∀ j, (cursor q s).toNat ≤ j → j < (cursor q t).toNat → entryTick s q j = s.schedI.toNat
  stop : (cursor q t).toNat < (cursor q s).toNat + n → entryTick s q (cursor q t).toNat ≠ s.schedI.toNat

theorem EventChange.refl (q : Queue) (s : State) : EventChange q s s :=
  ⟨s.voice, s.patch, s.depth, s.cc, s.pitchBend, cursor q s, by cases q <;> rfl⟩

theorem EventChange.trans {q : Queue} {s t u : State} (h : EventChange q s t) (k : EventChange q t u) :
    EventChange q s u := by
  obtain ⟨_, _, _, _, _, _, rfl⟩ := h
  obtain ⟨V, p, d, c, b, m, rfl⟩ := k
  exact ⟨V, p, d, c, b, m, by cases q <;> rfl⟩

/-- No event writes a queue or the sample counter. -/
theorem EventChange.keeps {q : Queue} {s t : State} (h : EventChange q s t) :
    (∀ p j, entryTick t p j = entryTick s p j) ∧ (∀ p, queueCount p t = queueCount p s) ∧ t.schedI = s.schedI := by
  obtain ⟨_, _, _, _, _, _, rfl⟩ := h
  cases q <;> exact ⟨fun _ _ => rfl, fun p => by cases p <;> rfl, rfl⟩

/-- The other queue's cursor stays. -/
theorem EventChange.cursor_other {q p : Queue} {s t : State} (h : EventChange q s t) (hp : p ≠ q) :
    cursor p t = cursor p s := by
  obtain ⟨_, _, _, _, _, _, rfl⟩ := h
  cases q <;> cases p <;> first | rfl | exact absurd rfl hp

theorem dispatch_eventChange (q : Queue) (s : State) : ∃ t, dispatch q (cursor q s).toNat s = .next t ∧
    EventChange q s (advance q t) ∧ cursor q (advance q t) = cursor q s + 1#32 := by
  obtain ⟨V, p, d, c, b, h⟩ := dispatch_frame q (cursor q s).toNat s
  refine ⟨_, h, ⟨V, p, d, c, b, cursor q s + 1#32, ?_⟩, ?_⟩ <;> cases q <;> rfl

theorem drain_drained (q : Queue) (n : Nat) (s : State) (hn : (cursor q s).toNat + n < 2 ^ 32) :
    ∃ t, drain q n s = .next t ∧ Drained q n s t := by
  induction n generalizing s with
  | zero => exact ⟨s, rfl, .refl q s, le_rfl, le_rfl, fun j _ _ => by omega, fun _ => by omega⟩
  | succ n ih =>
    by_cases hdue : entryTick s q (cursor q s).toNat = s.schedI.toNat
    · obtain ⟨u, hu, hsu, hcur⟩ := dispatch_eventChange q s
      have hnext : (cursor q (advance q u)).toNat = (cursor q s).toNat + 1 := by
        rw [hcur, BitVec.toNat_add, BitVec.toNat_ofNat]
        omega
      obtain ⟨htick, -, hsched⟩ := hsu.keeps
      obtain ⟨t, ht, hdrained⟩ := ih (advance q u) (by omega)
      have hfrom := hdrained.from_cursor
      have hend := hdrained.to_end
      refine ⟨t, by rw [drain_due n hdue, hu]; exact ht, hsu.trans hdrained.frame, by omega, by omega,
        fun j hj hjt => ?_, fun hlt => ?_⟩
      · obtain rfl | hj : (cursor q s).toNat = j ∨ (cursor q s).toNat + 1 ≤ j := by omega
        · exact hdue
        · rw [← htick, ← hsched]
          exact hdrained.due j (by omega) hjt
      · rw [← htick, ← hsched]
        exact hdrained.stop (by omega)
    · exact ⟨s, drain_notDue _ hdue, .refl q s, le_rfl, by omega, fun j _ _ => by omega, fun _ => hdue⟩

/-- A queue's turn works off the entries it has left. -/
theorem drainQueue_drained (q : Queue) (s : State) : ∃ t, drainQueue q s = .next t ∧
    Drained q ((queueCount q s).toNat - (cursor q s).toNat) s t := by
  have := (queueCount q s).isLt
  have := (cursor q s).isLt
  exact drain_drained q _ s (by omega)

/-! ### After the events (R805 steps 3 to 7) -/

theorem applyPanic_frame (s : State) : ∃ V, applyPanic s = { s with voice := V, panicPend := false } := by
  unfold applyPanic
  split
  next => exact ⟨_, rfl⟩
  next h =>
    have hp : s.panicPend = false := Bool.eq_false_of_not_eq_true h
    exact ⟨s.voice, by rw [← hp]⟩

/-- The panic and the voices leave the end of the sample a state that differs in voices and PANIC_PEND only. -/
theorem soundSample_eq (s : State) : ∃ V, (render (applyPanic s)).2 = { s with voice := V, panicPend := false } ∧
    soundSample s = finishSample (render (applyPanic s)).1 { s with voice := V, panicPend := false } := by
  obtain ⟨V, hpanic⟩ := applyPanic_frame s
  obtain ⟨W, hrender⟩ := render_frame (applyPanic s)
  have hstate : (render (applyPanic s)).2 = { s with voice := W, panicPend := false } := by
    rw [hrender, hpanic]
  refine ⟨W, hstate, ?_⟩
  rw [← hstate]
  rfl

/-- A sample: the swap check, the turns of both queues, and the rest (R805). -/
theorem sampleStep_drained (s : State) : ∃ a b,
    drainQueue .midi (swapCheck s) = .next a ∧ drainQueue .automation a = .next b ∧
    sampleStep s = .next (soundSample b) ∧
    Drained .midi ((queueCount .midi (swapCheck s)).toNat - (cursor .midi (swapCheck s)).toNat) (swapCheck s) a ∧
    Drained .automation ((queueCount .automation a).toNat - (cursor .automation a).toNat) a b := by
  obtain ⟨a, ha, hsa⟩ := drainQueue_drained .midi (swapCheck s)
  obtain ⟨b, hb, hab⟩ := drainQueue_drained .automation a
  refine ⟨a, b, ha, hb, ?_, hsa, hab⟩
  rw [sampleStep, ha]
  show bindNext (drainQueue .automation a) _ = _
  rw [hb]
  rfl

end Sys2Proof.Proofs
end

section
/-! SUPPORT. The control state (10_state.md R105; 44_scheduler.md R801-R807; 60_exceptions.md R910-R915): what RUN, a
sample, a fault and a bus write make of it, and that nothing else writes it. Settles O55. -/

namespace Sys2Proof.Proofs

-- One proof after another, as in the tests: proofs checked at once would hold too many threads.
set_option Elab.async false

open Sys2Proof.Machine Sys2Proof.Config Sys2Proof.Safety

/-! ### The control part of the state -/

/-- The fields the control state is made of. -/
structure ControlPart where
  busy : Bool
  fault : Bool
  panicPend : Bool
  errCause : Cause
  blockLen : Word
  midiCount : Word
  atmCount : Word
  schedI : Word
  mcur : Word
  acur : Word

/-- The control part of a state. -/
def controlPart (s : State) : ControlPart :=
  { busy := s.busy, fault := s.fault, panicPend := s.panicPend, errCause := s.errCause, blockLen := s.blockLen,
    midiCount := s.midiCount, atmCount := s.atmCount, schedI := s.schedI, mcur := s.mcur, acur := s.acur }

theorem controlConsistent_congr {s t : State} (h : controlPart t = controlPart s) (hs : ControlConsistent s) :
    ControlConsistent t := by
  simp only [controlPart, ControlPart.mk.injEq] at h
  obtain ⟨hb, hf, hp, hc, hlen, hmidi, hatm, hsched, hm, ha⟩ := h
  unfold ControlConsistent LengthsValid
  rw [hb, hf, hp, hc, hlen, hmidi, hatm, hsched, hm, ha]
  exact hs

/-- Outside a block only the positions the last one left are bound. -/
structure IdleConsistent (s : State) : Prop where
  busy : s.busy = false
  panicPend : s.panicPend = false
  fault : s.fault = true ↔ s.errCause ≠ .none
  schedI : s.schedI.toNat ≤ MAX_BLOCK
  mcur : s.mcur.toNat ≤ EVQ_CAP
  acur : s.acur.toNat ≤ EVQ_CAP

theorem IdleConsistent.consistent {s : State} (h : IdleConsistent s) : ControlConsistent s :=
  ⟨fun hb => absurd (h.busy.symm.trans hb) nofun, h.schedI, h.mcur, h.acur,
    fun hp => absurd (h.panicPend.symm.trans hp) nofun, h.fault⟩

theorem idleConsistent_of_consistent {s : State} (hs : ControlConsistent s) (hb : s.busy = false) :
    IdleConsistent s := by
  obtain ⟨-, hsched, hm, ha, hp, hf⟩ := hs
  exact ⟨hb, Bool.eq_false_of_not_eq_true fun h => absurd (hb.symm.trans (hp h)) nofun, hf, hsched, hm, ha⟩

/-- In the fault state no block runs (R914). -/
theorem idle_of_fault {s : State} (hs : ControlConsistent s) (hf : s.fault = true) : s.busy = false := by
  obtain ⟨hrun, -⟩ := hs
  exact Bool.eq_false_of_not_eq_true fun hb => absurd (hf.symm.trans (hrun hb).1) nofun

/-! ### Faults (R910, R912, R914) -/

/-- The first fault is recorded, and no panic waits after it. -/
theorem raise_record (c : Cause) (info loc : Word) {s : State} (hf : s.fault = false)
    (hp : s.busy = false → s.panicPend = false) :
    (raise c info loc s).fault = true ∧ (raise c info loc s).errCause = c ∧ (raise c info loc s).panicPend = false := by
  unfold raise recordFault
  rw [if_neg (by simp [hf]), abortBlock]
  cases hb : s.busy with
  | true =>
    rw [if_pos rfl]
    split <;> exact ⟨rfl, rfl, rfl⟩
  | false => exact ⟨rfl, rfl, hp hb⟩

theorem raise_consistent {c : Cause} (hc : c ≠ .none) (info loc : Word) {s : State} (hs : ControlConsistent s) :
    ControlConsistent (raise c info loc s) := by
  cases hf : s.fault with
  | true => rwa [raise_faulted c info loc s hf (idle_of_fault hs hf)]
  | false =>
    obtain ⟨hfault, hcause, hpanic⟩ := raise_record c info loc hf
      fun hb => (idleConsistent_of_consistent hs hb).panicPend
    have hframe := raise_frame c info loc s
    have hbusy := raise_busy c info loc s
    generalize raise c info loc s = t at *
    obtain ⟨-, hsched, hm, ha, -⟩ := hs
    refine IdleConsistent.consistent ⟨hbusy, hpanic, ?_, ?_, ?_, ?_⟩
    · rw [hfault, hcause]
      exact iff_of_true rfl hc
    all_goals
      obtain ⟨_, _, _, _, _, _, _, _, rfl⟩ := hframe
      assumption

theorem raiseAccess_consistent {c : Cause} (hc : c ≠ .none) (info : Word) {s : State} (hs : ControlConsistent s) :
    ControlConsistent (raiseAccess c info s) := raise_consistent hc info _ hs

/-! ### Instructions -/

theorem acceptVU_consistent {units : Nat} (c : Word) (voice : BitVec 8) (unit : BitVec 4)
    {f : Fin NVOICE → Fin units → State → State} {s : State} (hs : ControlConsistent s)
    (hf : ∀ v u, controlPart (f v u s) = controlPart s) : ControlConsistent (acceptVU c voice unit units f s) := by
  rcases acceptVU_cases c voice unit units f s with
    ⟨-, h⟩ | ⟨-, -, h⟩ | ⟨-, -, -, h⟩ | ⟨-, -, -, -, h⟩ | ⟨-, -, hv, hu, h⟩
  · rwa [h]
  · rw [h]; exact raiseAccess_consistent (by decide) c hs
  · rw [h]; exact raiseAccess_consistent (by decide) c hs
  · rw [h]; exact raiseAccess_consistent (by decide) c hs
  · rw [h]; exact controlConsistent_congr (hf _ _) hs

/-- An accepted command starts from an idle state without a fault. -/
theorem acceptG_consistent (c : Word) {f : State → State} {s : State} (hs : ControlConsistent s)
    (hf : Accepting s → ControlConsistent (f s)) : ControlConsistent (acceptG c f s) := by
  rcases acceptG_cases c f s with ⟨-, h⟩ | ⟨-, -, h⟩ | ⟨hfault, hb, h⟩
  · rwa [h]
  · rw [h]; exact raiseAccess_consistent (by decide) c hs
  · rw [h]; exact hf ⟨hfault, hb⟩

/-- RUN starts a block at its first sample and with legal lengths, or raises a fault (R802, R803). -/
theorem runCommand_consistent {s : State} (hs : ControlConsistent s) (haccept : Accepting s) :
    ControlConsistent (runCommand s) := by
  obtain ⟨hf, hb⟩ := haccept
  unfold runCommand
  split
  next e he => exact raise_consistent (validate_error_cause he) _ _ hs
  next ticks hok =>
    have hlen := lengthsValid_of_validate hok
    have hidle := idleConsistent_of_consistent hs hb
    have hpos : 1 ≤ s.blockLen.toNat := hlen.1
    exact ⟨fun _ => ⟨hf, hlen, hpos, Nat.zero_le _, Nat.zero_le _⟩, Nat.zero_le _, Nat.zero_le _, Nat.zero_le _,
      fun _ => rfl, hidle.fault⟩

theorem clearFault_consistent {s : State} (hs : ControlConsistent s) (hb : s.busy = false) :
    ControlConsistent (clearFault s) := by
  obtain ⟨hbusy, hpanic, -, hsched, hm, ha⟩ := idleConsistent_of_consistent hs hb
  exact IdleConsistent.consistent ⟨hbusy, hpanic, iff_of_false nofun fun h => h rfl, hsched, hm, ha⟩

theorem errClear_consistent {s : State} (hs : ControlConsistent s) : ControlConsistent
    (if s.fault then clearFault s
      else if s.busy then raiseAccess .cmdBusy (encodeHead .errClear) s else clearFault s) := by
  split
  next hf => exact clearFault_consistent hs (idle_of_fault hs hf)
  next =>
    split
    next => exact raiseAccess_consistent (by decide) _ hs
    next hb => exact clearFault_consistent hs (Bool.eq_false_of_not_eq_true hb)

theorem panic_consistent {s : State} (hs : ControlConsistent s) : ControlConsistent
    (if s.fault then s else if s.busy then { s with panicPend := true } else panicKill s) := by
  split
  next => exact hs
  next =>
    split
    next hb =>
      obtain ⟨hrun, hsched, hm, ha, -, hf⟩ := hs
      exact ⟨hrun, hsched, hm, ha, fun _ => hb, hf⟩
    next => exact controlConsistent_congr rfl hs

theorem onVoice_consistent (target : BitVec 16) {f : Fin NVOICE → State → State} {s : State}
    (hs : ControlConsistent s) (hf : ∀ v, controlPart (f v s) = controlPart s) :
    ControlConsistent (onVoice target f s) := by
  unfold onVoice
  split
  · exact controlConsistent_congr (hf _) hs
  · exact hs

/-- Every instruction keeps the control state consistent. -/
theorem exec_consistent {i : Instr} {s t : State} (h : exec i s = .next t) (hs : ControlConsistent s) :
    ControlConsistent t := by
  cases i <;> obtain rfl := Host.Outcome.next.inj h
  case nop | evPitchBend => exact hs
  case run => exact acceptG_consistent _ hs (runCommand_consistent hs)
  case panic => exact panic_consistent hs
  case allNotesOff => exact acceptG_consistent _ hs fun _ => controlConsistent_congr rfl hs
  case errClear => exact errClear_consistent hs
  case evNoteOn | evNoteOff => exact onVoice_consistent _ hs fun _ => rfl
  case evControllerM => split <;> exact hs
  case evAutomation tick target value =>
    split
    next l hl =>
      obtain ⟨p, d, hframe⟩ := writeLoc_automatable_frame l value s (automationTarget_automatable hl)
      rw [hframe]; exact hs
    next => exact hs
  all_goals exact acceptVU_consistent _ _ _ hs fun _ _ => rfl

/-! ### Bus accesses -/

theorem busRead_consistent (a : Word) {s : State} (hs : ControlConsistent s) : ControlConsistent (busRead a s) := by
  have hfault {c : Cause} (hc : c ≠ .none) : ControlConsistent (faultRead c a s) :=
    controlConsistent_congr rfl (raiseAccess_consistent hc a hs)
  unfold busRead
  split
  · exact hfault (by decide)
  · split
    · exact hfault (by decide)
    · unfold readEffect
      split <;> exact hs

/-- The lengths and counts are written outside a block only (R212, R243). -/
theorem writeLoc_consistent {s : State} {l : Loc} (x : Word) (hs : ControlConsistent s)
    (hl : s.busy = false ∨ writableWhileBusy s l = true) : ControlConsistent (writeLoc s x l) := by
  cases l
  case blockLen | midiCount | atmCount =>
    obtain ⟨hbusy, hpanic, hf, hsched, hm, ha⟩ := idleConsistent_of_consistent hs (hl.resolve_right nofun)
    exact IdleConsistent.consistent ⟨hbusy, hpanic, hf, hsched, hm, ha⟩
  case wtBlen bank => cases bank <;> exact hs
  all_goals exact controlConsistent_congr rfl hs

theorem commandWrite_consistent {c : Word} {s t : State} (h : commandWrite c s = .next t)
    (hs : ControlConsistent s) : ControlConsistent t := by
  unfold commandWrite at h
  split at h
  · exact exec_consistent h hs
  · obtain rfl := Host.Outcome.next.inj h
    split
    · exact hs
    · exact raiseAccess_consistent (by decide) _ hs

theorem busWrite_consistent {a x : Word} {s t : State} (h : busWrite a x s = .next t) (hs : ControlConsistent s) :
    ControlConsistent t := by
  have hfault {c : Cause} (hc : c ≠ .none) (hraise : busWrite a x s = .next (raiseAccess c a s)) :
      ControlConsistent t := by
    obtain rfl := Host.Outcome.next.inj (hraise.symm.trans h)
    exact raiseAccess_consistent hc a hs
  by_cases h4 : a.toNat % 4 = 0
  case neg => exact hfault (by decide) (busWrite_misaligned x s h4)
  match hl : decodeAddr a.toNat with
  | none => exact hfault (by decide) (busWrite_unmapped x s h4 hl)
  | some l =>
    by_cases hopen : s.busy = false ∨ writableWhileBusy s l = true
    case neg =>
      obtain ⟨hb, hw⟩ := not_or.1 hopen
      exact hfault (by decide) (busWrite_refused x s h4 hl (by simpa using hb) (by simpa using hw))
    rw [busWrite_mapped x s h4 hl hopen] at h
    unfold storeLoc at h
    split at h
    next => exact commandWrite_consistent h hs
    next =>
      obtain rfl := Host.Outcome.next.inj h
      exact writeLoc_consistent x hs hopen

theorem resetInput_consistent (s : State) : ControlConsistent (resetInput s) :=
  IdleConsistent.consistent ⟨rfl, rfl, iff_of_false nofun fun h => h rfl, Nat.zero_le _, Nat.zero_le _, Nat.zero_le _⟩

/-! ### One sample -/

theorem swapCheck_consistent {s : State} (hs : ControlConsistent s) : ControlConsistent (swapCheck s) := by
  obtain ⟨_, _, _, h⟩ := swapCheck_frame s
  rw [h]
  exact hs

/-- The events of a queue move its cursor at most to its end. -/
theorem drainQueue_consistent {q : Queue} {s t : State} (hs : ControlConsistent s) (hb : s.busy = true)
    (h : Drained q ((queueCount q s).toNat - (cursor q s).toNat) s t) : ControlConsistent t ∧ t.busy = true := by
  obtain ⟨hrun, hsched, hm, ha, hp, hf⟩ := hs
  obtain ⟨hfault, hlen, hpos, hmidi, hatm⟩ := hrun hb
  have ⟨_, _, hmidiCap, hatmCap⟩ := hlen
  have hend := h.to_end
  obtain ⟨_, _, _, _, _, m, rfl⟩ := h.frame
  cases q
  · have hcur : m.toNat ≤ s.mcur.toNat + (s.midiCount.toNat - s.mcur.toNat) := hend
    have hle : m.toNat ≤ s.midiCount.toNat := by omega
    exact ⟨⟨fun _ => ⟨hfault, hlen, hpos, hle, hatm⟩, hsched, hle.trans hmidiCap, ha, hp, hf⟩, hb⟩
  · have hcur : m.toNat ≤ s.acur.toNat + (s.atmCount.toNat - s.acur.toNat) := hend
    have hle : m.toNat ≤ s.atmCount.toNat := by omega
    exact ⟨⟨fun _ => ⟨hfault, hlen, hpos, hmidi, hle⟩, hsched, hm, hle.trans hatmCap, hp, hf⟩, hb⟩

/-- The end of a sample counts it, and ends the block at its length (R805, R807). -/
theorem finishSample_control (x : F32) (s : State) : controlPart (finishSample x s) =
    if s.schedI.toNat + 1 = s.blockLen.toNat then
      { controlPart s with schedI := s.schedI + 1#32, busy := false }
    else { controlPart s with schedI := s.schedI + 1#32 } := by
  rw [finishSample_eq]
  unfold storeOut
  split <;> split <;> rfl

/-- The sample counter does not overflow inside a block. -/
theorem schedI_succ {s : State} (hs : ControlConsistent s) (hb : s.busy = true) :
    (s.schedI + 1#32).toNat = s.schedI.toNat + 1 := by
  have := s.blockLen.isLt
  have hpos : s.schedI.toNat < s.blockLen.toNat := (hs.1 hb).2.2.1
  rw [BitVec.toNat_add, BitVec.toNat_ofNat]
  omega

theorem finishSample_consistent (x : F32) {s : State} (hs : ControlConsistent s) (hb : s.busy = true)
    (hp : s.panicPend = false) : ControlConsistent (finishSample x s) := by
  have hcount := schedI_succ hs hb
  obtain ⟨hrun, -, hm, ha, -, hf⟩ := hs
  obtain ⟨hfault, hlen, hpos, hmidi, hatm⟩ := hrun hb
  have ⟨_, hmax, _, _⟩ := hlen
  have hle : (s.schedI + 1#32).toNat ≤ MAX_BLOCK := by omega
  have hend := finishSample_control x s
  split at hend
  next hlast =>
    exact controlConsistent_congr (s := { s with schedI := s.schedI + 1#32, busy := false }) hend
      (IdleConsistent.consistent ⟨rfl, hp, hf, hle, hm, ha⟩)
  next hmore =>
    have hin : (s.schedI + 1#32).toNat < s.blockLen.toNat := by omega
    exact controlConsistent_congr (s := { s with schedI := s.schedI + 1#32 }) hend
      ⟨fun _ => ⟨hfault, hlen, hin, hmidi, hatm⟩, hle, hm, ha, fun _ => hb, hf⟩

theorem soundSample_consistent {s : State} (hs : ControlConsistent s) (hb : s.busy = true) :
    ControlConsistent (soundSample s) := by
  obtain ⟨V, -, hsound⟩ := soundSample_eq s
  obtain ⟨hrun, hsched, hm, ha, -, hf⟩ := hs
  rw [hsound]
  exact finishSample_consistent _ ⟨hrun, hsched, hm, ha, nofun, hf⟩ hb rfl

theorem sampleStep_consistent {s t : State} (h : sampleStep s = .next t) (hs : ControlConsistent s)
    (hb : s.busy = true) : ControlConsistent t := by
  obtain ⟨a, b, -, -, hstep, hsa, hab⟩ := sampleStep_drained s
  obtain rfl := Host.Outcome.next.inj (hstep.symm.trans h)
  have hswap : (swapCheck s).busy = true := by
    obtain ⟨_, _, _, hframe⟩ := swapCheck_frame s
    rw [hframe]
    exact hb
  obtain ⟨ha, hab'⟩ := drainQueue_consistent (swapCheck_consistent hs) hswap hsa
  obtain ⟨hb, hbb⟩ := drainQueue_consistent ha hab' hab
  exact soundSample_consistent hb hbb

/-! ### One step -/

theorem scheduler_consistent {s t : State} (h : scheduler s = .next t) (hs : ControlConsistent s) :
    ControlConsistent t := by
  unfold scheduler at h
  split at h
  next hb => exact sampleStep_consistent h hs hb
  next =>
    obtain rfl := Host.Outcome.next.inj h
    exact hs

theorem takeTurn_consistent {turn : Turn} {s t : State} (h : takeTurn turn s = .next t) (hs : ControlConsistent s) :
    ControlConsistent t := by
  cases turn with
  | read a => obtain rfl := Host.Outcome.next.inj h; exact busRead_consistent a hs
  | write a x => exact busWrite_consistent h hs
  | sample => exact scheduler_consistent h hs
  | reset => obtain rfl := Host.Outcome.next.inj h; exact resetInput_consistent s

/-- Settles O55: a block starts after its validation, runs inside its bounds, and a fault ends it. -/
theorem controlStateStaysConsistent : Obligations.ControlStateStaysConsistent := by
  unfold Obligations.ControlStateStaysConsistent
  intro s t hs h
  unfold step at h
  split at h
  · exact scheduler_consistent h hs
  · exact takeTurn_consistent (s := { s with agenda := _ }) h hs

end Sys2Proof.Proofs
end

section
/-! SUPPORT. The sound of one sample (44_scheduler.md R805-R807, R811): the active voices are stepped, each from its own
state, and summed; what a sample writes, and how a block ends. Settles O48, O49 and O51. -/

namespace Sys2Proof.Proofs

-- One proof after another, as in the tests: proofs checked at once would hold too many threads.
set_option Elab.async false

open Sys2Proof.Machine Sys2Proof.Config Sys2Proof.Safety

/-! ### The voices (R805 step 4, R811) -/

/-- A voice is stepped from its own state: the other voices do not matter. -/
theorem voiceStep_of_voice {v : Fin NVOICE} {s : State} {V : Vector Voice NVOICE} (h : V[v] = s.voice[v]) :
    voiceStep v { s with voice := V } =
      ((voiceStep v s).1, { s with voice := V.set v.val (voiceStep v s).2.voice[v] v.isLt }) := by
  obtain ⟨g, hg⟩ := voiceStep_actsOn v s
  have hself : voiceStep v s = _ := hg s.voice
  have hget : (voiceStep v s).2.voice[v] = (g s.voice[v]).2 := by
    rw [hself]
    exact Vector.getElem_set_self v.isLt
  rw [hget, hg, h, hself]

/-- Voice `v` is active (R806). -/
def activeIn (s : State) (v : Fin NVOICE) : Bool := voiceActive s.voice[v]

theorem activeIn_eq (s : State) (v : Fin NVOICE) : activeIn s v = (s.voice[v].env[0].stage != .off) := by
  rw [activeIn, voiceActive, Bool.eq_iff_iff]
  simp

/-- The outputs of the active voices of a list, in its order. -/
def activeOutputs (s : State) (l : List (Fin NVOICE)) : List F32 := (l.filter (activeIn s)).map fun v => (voiceStep v s).1

/-- Voice `v` after the voices of `l` are stepped. -/
def renderedVoice (s : State) (l : List (Fin NVOICE)) (V : Vector Voice NVOICE) (v : Fin NVOICE) : Voice :=
  if v ∈ l ∧ activeIn s v = true then (voiceStep v s).2.voice[v] else V[v]

theorem renderVoice_active {v : Fin NVOICE} {s : State} {V : Vector Voice NVOICE} (h : V[v] = s.voice[v])
    (hv : activeIn s v = true) (x : F32) : renderVoice (x, { s with voice := V }) v =
      (fAdd x (voiceStep v s).1, { s with voice := V.set v.val (voiceStep v s).2.voice[v] v.isLt }) := by
  rw [activeIn, ← h] at hv
  rw [renderVoice, if_pos hv, voiceStep_of_voice h]

theorem renderVoice_idle {v : Fin NVOICE} {s : State} {V : Vector Voice NVOICE} (h : V[v] = s.voice[v])
    (hv : activeIn s v = false) (x : F32) :
    renderVoice (x, { s with voice := V }) v = (x, { s with voice := V }) := by
  rw [activeIn, ← h] at hv
  have hidle : ¬ voiceActive V[v] = true := by rw [hv]; exact Bool.false_ne_true
  exact if_neg hidle

theorem foldl_renderVoice (s : State) {l : List (Fin NVOICE)} (hl : l.Nodup) (x : F32) {V : Vector Voice NVOICE}
    (hV : ∀ v ∈ l, V[v] = s.voice[v]) : ∃ W, l.foldl renderVoice (x, { s with voice := V }) =
      ((activeOutputs s l).foldl fAdd x, { s with voice := W }) ∧ ∀ v : Fin NVOICE, W[v] = renderedVoice s l V v := by
  induction l generalizing x V with
  | nil => exact ⟨V, rfl, fun v => by simp [renderedVoice]⟩
  | cons v l ih =>
    obtain ⟨hv, hl⟩ := List.nodup_cons.1 hl
    obtain ⟨hVv, hVl⟩ := List.forall_mem_cons.1 hV
    rw [List.foldl_cons]
    cases hactive : activeIn s v with
    | true =>
      have hother (w : Fin NVOICE) (hw : w ≠ v) (W : Voice) : (V.set v.val W v.isLt)[w] = V[w] :=
        Vector.getElem_set_ne v.isLt w.isLt fun h => hw (Fin.ext h.symm)
      obtain ⟨W, hW, hget⟩ := ih hl (fAdd x (voiceStep v s).1)
        (V := V.set v.val (voiceStep v s).2.voice[v] v.isLt)
        fun w hw => (hother w (fun h => hv (h ▸ hw)) _).trans (hVl w hw)
      rw [renderVoice_active hVv hactive, hW, activeOutputs, activeOutputs, List.filter_cons_of_pos hactive]
      refine ⟨W, rfl, fun w => ?_⟩
      rw [hget, renderedVoice, renderedVoice]
      by_cases hw : w = v
      · subst hw
        rw [if_neg (by simp [hv]), if_pos (by simp [hactive])]
        exact Vector.getElem_set_self w.isLt
      · simp only [List.mem_cons, hw, false_or, hother w hw]
    | false =>
      obtain ⟨W, hW, hget⟩ := ih hl x hVl
      rw [renderVoice_idle hVv hactive, hW, activeOutputs, activeOutputs, List.filter_cons_of_neg (by simp [hactive])]
      refine ⟨W, rfl, fun w => ?_⟩
      rw [hget, renderedVoice, renderedVoice]
      by_cases hw : w = v
      · subst hw
        rw [if_neg (by simp [hv]), if_neg (by simp [hactive])]
      · simp only [List.mem_cons, hw, false_or]

/-- The active voices are stepped once and summed in increasing index; the others stay (R805, R806, R811). -/
theorem render_eq (s : State) : ∃ W, render s =
      ((activeOutputs s (List.finRange NVOICE)).foldl fAdd f0, { s with voice := W }) ∧
    ∀ v : Fin NVOICE, W[v] = if activeIn s v = true then (voiceStep v s).2.voice[v] else s.voice[v] := by
  obtain ⟨W, hW, hget⟩ := foldl_renderVoice s (List.nodup_finRange NVOICE) f0 (V := s.voice) fun _ _ => rfl
  refine ⟨W, hW, fun v => ?_⟩
  rw [hget, renderedVoice]
  simp only [List.mem_finRange, true_and]

/-- With no voice active nothing is stepped, and the sum is +0.0 (R811). -/
theorem render_silent {s : State} (h : ∀ v : Fin NVOICE, activeIn s v = false) : render s = (f0, s) := by
  have fold (l : List (Fin NVOICE)) : l.foldl renderVoice (f0, s) = (f0, s) := by
    induction l with
    | nil => rfl
    | cons v l ih =>
      have hstep : renderVoice (f0, s) v = (f0, s) := renderVoice_idle (V := s.voice) rfl (h v) f0
      rw [List.foldl_cons, hstep, ih]
  exact fold _

/-! ### A pending panic (R805 step 3, R841) -/

theorem applyPanic_eq_panicApplied (s : State) : applyPanic s = panicApplied s := by
  have hvoice : (panicKill s).voice = Vector.ofFn fun v : Fin NVOICE =>
      { s.voice[v] with env := Vector.ofFn fun e : Fin NENV => killed s.voice[v].env[e] } := by
    ext1 v hv
    rw [Vector.getElem_ofFn]
    refine (vmap_get _ s.voice v hv).trans ?_
    congr 1
    ext1 e he
    rw [Vector.getElem_ofFn]
    exact vmap_get envKill _ e he
  unfold applyPanic panicApplied
  rw [← hvoice]
  rfl

/-- After a panic every envelope is killed. -/
theorem applyPanic_env {s : State} (hp : s.panicPend = true) (v : Fin NVOICE) (e : Fin NENV) :
    (applyPanic s).voice[v].env[e] = killed s.voice[v].env[e] := by
  obtain ⟨-, hkill⟩ := modAllEnvs_spec envKill s
  rw [applyPanic, if_pos hp]
  exact (hkill v).2 e

/-- So no voice is active, and the sample is silent. -/
theorem render_applyPanic {s : State} (hp : s.panicPend = true) : render (applyPanic s) = (f0, applyPanic s) := by
  refine render_silent fun v => ?_
  have hoff : (applyPanic s).voice[v].env[(0 : Fin NENV)].stage = .off := by rw [applyPanic_env hp]; rfl
  exact decide_eq_false (not_not.2 hoff)

/-! ### The end of a sample (R805 steps 5 to 7) -/

/-- The end of a sample writes one word of RAM, the counter and, at the last sample, BUSY and DONE. -/
theorem finishSample_frame (x : F32) (s : State) : ∃ m b q, finishSample x s =
    { s with ram := m, schedI := s.schedI + 1#32, busy := b, irqStatus := q } := by
  rw [finishSample_eq]
  unfold storeOut
  split <;> split <;> exact ⟨_, _, _, rfl⟩

theorem finishSample_last (x : F32) {s : State} (h : s.schedI.toNat + 1 = s.blockLen.toNat) :
    (finishSample x s).busy = false ∧ (finishSample x s).irqStatus = s.irqStatus ||| 1#3 := by
  rw [finishSample_eq, if_pos h]
  exact ⟨rfl, rfl⟩

theorem finishSample_more (x : F32) {s : State} (h : s.schedI.toNat + 1 ≠ s.blockLen.toNat) :
    (finishSample x s).busy = s.busy ∧ (finishSample x s).irqStatus = s.irqStatus := by
  rw [finishSample_eq, if_neg h]
  unfold storeOut
  split <;> exact ⟨rfl, rfl⟩

/-- Inside OUT the word written is the sample's (R135). -/
theorem finishSample_ram (x : F32) {s : State} (h : s.schedI.toNat < MAX_BLOCK) :
    (∀ a, ramByte (finishSample x s) a = ramByte (setRamWord (outAddr s.schedI.toNat) x s) a) ∧
    ∀ a, ramWord (finishSample x s) a = ramWord (setRamWord (outAddr s.schedI.toNat) x s) a := by
  rw [finishSample_eq, storeOut, if_pos h]
  split <;> exact ⟨fun _ => rfl, fun _ => rfl⟩

/-- Steps 3 to 7 of a sample write voices, PANIC_PEND, one word of RAM, the counter and, at the end, BUSY and DONE. -/
theorem soundSample_frame (s : State) : ∃ m b q, soundSample s =
    { s with voice := (render (applyPanic s)).2.voice, panicPend := false, ram := m, schedI := s.schedI + 1#32,
             busy := b, irqStatus := q } := by
  obtain ⟨V, hrender, hsound⟩ := soundSample_eq s
  obtain ⟨m, b, q, hfinish⟩ := finishSample_frame (render (applyPanic s)).1 { s with voice := V, panicPend := false }
  exact ⟨m, b, q, by rw [hsound, hfinish, hrender]⟩

theorem soundSample_last {s : State} (h : s.schedI.toNat + 1 = s.blockLen.toNat) :
    (soundSample s).busy = false ∧ (soundSample s).irqStatus = s.irqStatus ||| 1#3 := by
  obtain ⟨V, -, hsound⟩ := soundSample_eq s
  rw [hsound]
  exact finishSample_last _ (s := { s with voice := V, panicPend := false }) h

theorem soundSample_more {s : State} (h : s.schedI.toNat + 1 ≠ s.blockLen.toNat) :
    (soundSample s).busy = s.busy ∧ (soundSample s).irqStatus = s.irqStatus := by
  obtain ⟨V, -, hsound⟩ := soundSample_eq s
  rw [hsound]
  exact finishSample_more _ (s := { s with voice := V, panicPend := false }) h

/-- The output word is the sum of the voices; no other byte of RAM is written. -/
theorem soundSample_ram {s : State} (h : s.schedI.toNat < MAX_BLOCK) :
    ramWord (soundSample s) (outAddr s.schedI.toNat) = (render (applyPanic s)).1 ∧
    ∀ a, a < outAddr s.schedI.toNat ∨ outAddr s.schedI.toNat + 4 ≤ a → ramByte (soundSample s) a = ramByte s a := by
  obtain ⟨V, -, hsound⟩ := soundSample_eq s
  obtain ⟨hbyte, hword⟩ := finishSample_ram (render (applyPanic s)).1 (s := { s with voice := V, panicPend := false }) h
  rw [hsound]
  exact ⟨(hword _).trans (ramWord_setRamWord_same _ _ _),
    fun a ha => (hbyte a).trans (ramByte_setRamWord_other _ _ a _ ha)⟩

/-! ### The events of a sample -/

/-- From `s` to `t` the cursor of `q` has moved past its due entries, and stands at one that is not due or at the end
(R805 step 2). -/
def CursorMoved (q : Queue) (s t : State) : Prop :=
  (cursor q s).toNat ≤ (cursor q t).toNat ∧
  (∀ j, (cursor q s).toNat ≤ j → j < (cursor q t).toNat →
    j < (queueCount q s).toNat ∧ entryTick s q j = s.schedI.toNat) ∧
  ((cursor q t).toNat < (queueCount q s).toNat → entryTick s q (cursor q t).toNat ≠ s.schedI.toNat)

theorem Drained.cursorMoved {q : Queue} {s t : State}
    (h : Drained q ((queueCount q s).toNat - (cursor q s).toNat) s t) : CursorMoved q s t := by
  have hfrom := h.from_cursor
  have hend := h.to_end
  exact ⟨hfrom, fun j hj hjt => ⟨by omega, h.due j hj hjt⟩, fun hlt => h.stop (by omega)⟩

/-- It is seen in any states with the same queue, counter and cursors. -/
theorem CursorMoved.congr {q : Queue} {s s' t t' : State} (hcursor : cursor q s' = cursor q s)
    (hcount : queueCount q s' = queueCount q s) (htick : ∀ j, entryTick s' q j = entryTick s q j)
    (hsched : s'.schedI = s.schedI) (ht : cursor q t' = cursor q t) (h : CursorMoved q s t) :
    CursorMoved q s' t' := by
  unfold CursorMoved
  simp only [hcursor, hcount, htick, hsched, ht]
  exact h

/-- `a` is the state after the MIDI events of a sample of `s`, and `b` that after all its events. -/
structure EventsDone (s a b : State) : Prop where
  midiRun : drainQueue .midi (eventsStart s) = .next a
  atmRun : drainQueue .automation a = .next b
  midi : Drained .midi ((queueCount .midi (eventsStart s)).toNat - (cursor .midi (eventsStart s)).toNat)
    (eventsStart s) a
  automation : Drained .automation ((queueCount .automation a).toNat - (cursor .automation a).toNat) a b

/-- A sample of a block: its events, then its sound (R805). -/
theorem step_cases {s t : State} (hnext : SchedulerNext s) (hb : s.busy = true) (h : step s = .next t) :
    ∃ a b, EventsDone s a b ∧ t = soundSample b := by
  obtain ⟨a, b, ha, hb', hstep, hsa, hab⟩ := sampleStep_drained (turnTaken s)
  rw [step_of_schedulerNext hnext, scheduler, if_pos (show (turnTaken s).busy = true from hb), hstep] at h
  exact ⟨a, b, ⟨ha, hb', hsa, hab⟩, (Host.Outcome.next.inj h).symm⟩

theorem EventsDone.cursorMoved {s a b : State} (h : EventsDone s a b) (q : Queue) : CursorMoved q s b := by
  obtain ⟨_, _, _, hstart⟩ := eventsStart_frame s
  cases q with
  | midi =>
    refine h.midi.cursorMoved.congr ?_ ?_ (fun _ => ?_) ?_ (h.automation.frame.cursor_other nofun)
    · rw [hstart]; rfl
    · rw [hstart]; rfl
    · rw [hstart]; rfl
    · rw [hstart]
  | automation =>
    obtain ⟨htick, hcount, hsched⟩ := h.midi.frame.keeps
    have hcursor : cursor .automation a = cursor .automation (eventsStart s) := h.midi.frame.cursor_other nofun
    refine h.automation.cursorMoved.congr ?_ ?_ (fun _ => ?_) ?_ rfl
    · rw [hcursor, hstart]; rfl
    · rw [hcount, hstart]; rfl
    · rw [htick, hstart]; rfl
    · rw [hsched, hstart]

/-- What the events and the swap check of a sample may have written (R250, R233). -/
theorem EventsDone.frame {s a b : State} (h : EventsDone s a b) : ∃ V p d c e m k bank r, b =
    { s with agenda := s.agenda.tail, voice := V, patch := p, depth := d, cc := c, pitchBend := e, mcur := m,
             acur := k, activeBank := bank, swapReq := r, irqStatus := (eventsStart s).irqStatus } := by
  obtain ⟨_, _, _, _, _, m, ha⟩ := h.midi.frame
  obtain ⟨V, p, d, c, e, k, hb⟩ := h.automation.frame
  obtain ⟨bank, r, q, hstart⟩ := eventsStart_frame s
  rw [hb, ha, hstart]
  exact ⟨V, p, d, c, e, m, k, bank, r, rfl⟩

/-- The swap check sets at most WT_SWAPPED (R233). -/
theorem eventsStart_irq (s : State) : (eventsStart s).irqStatus.getLsbD 0 = s.irqStatus.getLsbD 0 ∧
    (eventsStart s).irqStatus.getLsbD 1 = s.irqStatus.getLsbD 1 := by
  have hturn : (turnTaken s).irqStatus = s.irqStatus := rfl
  unfold eventsStart swapCheck
  split <;> simp [irqSetSwapped, hturn]

/-! ### What a sample writes -/

/-- What the end of a sample finds as the sample did: the events do not write it (R250). -/
theorem EventsDone.keeps {s a b : State} (h : EventsDone s a b) :
    b.schedI = s.schedI ∧ b.blockLen = s.blockLen ∧ b.panicPend = s.panicPend ∧ b.busy = s.busy ∧
    b.irqStatus = (eventsStart s).irqStatus ∧ ∀ x, ramByte b x = ramByte s x := by
  obtain ⟨_, _, _, _, _, _, _, _, _, rfl⟩ := h.frame
  exact ⟨rfl, rfl, rfl, rfl, rfl, fun _ => rfl⟩

/-- A sample leaves all alone that only a host writes (R250). -/
theorem EventsDone.sound_frame {s a b : State} (h : EventsDone s a b) :
    { soundSample b with
      busy := s.busy, panicPend := s.panicPend, irqStatus := s.irqStatus, schedI := s.schedI, mcur := s.mcur,
      acur := s.acur, pitchBend := s.pitchBend, activeBank := s.activeBank, swapReq := s.swapReq, patch := s.patch,
      cc := s.cc, depth := s.depth, voice := s.voice, ram := s.ram } = turnTaken s := by
  obtain ⟨_, _, _, hsound⟩ := soundSample_frame b
  obtain ⟨_, _, _, _, _, _, _, _, _, hframe⟩ := h.frame
  rw [hsound, hframe]
  rfl

theorem soundSample_cursor (q : Queue) (s : State) : cursor q (soundSample s) = cursor q s := by
  obtain ⟨_, _, _, hsound⟩ := soundSample_frame s
  rw [hsound]
  cases q <;> rfl

/-- A sample counts itself, and no panic waits after it. -/
theorem soundSample_counts (s : State) :
    (soundSample s).schedI = s.schedI + 1#32 ∧ (soundSample s).panicPend = false := by
  obtain ⟨_, _, _, hsound⟩ := soundSample_frame s
  rw [hsound]
  exact ⟨rfl, rfl⟩

/-- A pending panic leaves every envelope killed and the sample silent (R805 step 3, R841). -/
theorem soundSample_panic {s : State} (hp : s.panicPend = true) (hin : s.schedI.toNat < MAX_BLOCK) :
    (∀ (v : Fin NVOICE) (e : Fin NENV), (soundSample s).voice[v].env[e] = killed (soundSample s).voice[v].env[e]) ∧
    ramWord (soundSample s) (outAddr s.schedI.toNat) = f0 := by
  obtain ⟨_, _, _, hsound⟩ := soundSample_frame s
  obtain ⟨hword, -⟩ := soundSample_ram hin
  have hvoice : (soundSample s).voice = (applyPanic s).voice := by rw [hsound, render_applyPanic hp]
  refine ⟨fun v e => ?_, by rw [hword, render_applyPanic hp]⟩
  rw [hvoice, applyPanic_env hp]
  rfl

/-- The end of a block sets DONE (R807), and no sample touches IRQ_STATUS.FAULT (R910). -/
theorem soundSample_irqFault (s : State) : (soundSample s).irqStatus.getLsbD 1 = s.irqStatus.getLsbD 1 := by
  by_cases hlast : s.schedI.toNat + 1 = s.blockLen.toNat
  · rw [(soundSample_last hlast).2]; simp
  · rw [(soundSample_more hlast).2]

/-- Settles O48: the events leave RAM, BUSY and the counter to the end of the sample. -/
theorem sampleWritesItsOutputWordOnly : Obligations.SampleWritesItsOutputWordOnly := by
  unfold Obligations.SampleWritesItsOutputWordOnly
  intro s t hnext hb hin h
  obtain ⟨a, b, hevents, ht⟩ := step_cases hnext hb h
  obtain ⟨hsched, hlen, hpend, hbusy, hirq, hbyte⟩ := hevents.keeps
  obtain ⟨hdone, hfault⟩ := eventsStart_irq s
  have hmoved (q : Queue) : CursorMoved q s t :=
    (hevents.cursorMoved q).congr rfl rfl (fun _ => rfl) rfl (ht ▸ soundSample_cursor q b)
  have hframe := hevents.sound_frame
  have hcounts := soundSample_counts b
  have hram := (soundSample_ram (s := b) (by rwa [hsched])).2
  have hpanic := soundSample_panic (s := b)
  have hlast := soundSample_last (s := b)
  have hmore := soundSample_more (s := b)
  have hirqFault := soundSample_irqFault b
  rw [← ht] at hframe hcounts hram hpanic hlast hmore hirqFault
  rw [hsched] at hcounts hram hpanic hlast hmore
  rw [hlen, hirq] at hlast hmore
  refine ⟨fun x hx => (hram x hx).trans (hbyte x), hmoved, hcounts.1, hcounts.2,
    fun hp => hpanic (hpend.trans hp) hin, fun hend => ?_, fun hgo => ?_, ?_, hframe⟩
  · obtain ⟨hidle, hset⟩ := hlast hend
    exact ⟨hidle, by rw [hset]; simp⟩
  · obtain ⟨hrun, hkept⟩ := hmore hgo
    exact ⟨by rw [hrun, hbusy, hb], by rw [hkept, hdone]⟩
  · rw [hirqFault, hirq, hfault]

/-! ### The voices of a sample -/

/-- A voice whose amplitude envelope is Off stays, every other is stepped once (R806). -/
theorem soundSample_voice (s : State) (v : Fin NVOICE) : (soundSample s).voice[v] =
    if (applyPanic s).voice[v].env[0].stage = .off then (applyPanic s).voice[v]
    else (voiceStep v (applyPanic s)).2.voice[v] := by
  obtain ⟨_, _, _, hsound⟩ := soundSample_frame s
  obtain ⟨W, hrender, hvoice⟩ := render_eq (applyPanic s)
  rw [hsound, hrender]
  refine (hvoice v).trans ?_
  by_cases hoff : (applyPanic s).voice[v].env[0].stage = .off
  · rw [if_pos hoff, if_neg (by rw [activeIn_eq, hoff]; exact Bool.false_ne_true)]
  · rw [if_neg hoff, if_pos (by rw [activeIn_eq]; exact bne_iff_ne.2 hoff)]

/-- The output word is the sum of the outputs of the active voices (R805 step 5, R811). -/
theorem soundSample_out {s : State} (h : s.schedI.toNat < MAX_BLOCK) :
    ramWord (soundSample s) (outAddr s.schedI.toNat) =
      (((List.finRange NVOICE).filter fun v => (applyPanic s).voice[v].env[0].stage != .off).map
        fun v => (voiceStep v (applyPanic s)).1).foldl fAdd f0 := by
  obtain ⟨W, hrender, -⟩ := render_eq (applyPanic s)
  rw [(soundSample_ram h).1, hrender, activeOutputs, funext (activeIn_eq (applyPanic s))]

/-- With no event due, the sound is that of the state at the swap check. -/
theorem EventsDone.eq_eventsStart {s a b : State} (h : EventsDone s a b) (hmidi : NoneDue s .midi)
    (hatm : NoneDue s .automation) : b = eventsStart s := by
  obtain ⟨_, _, _, hstart⟩ := eventsStart_frame s
  have ha : drainQueue .midi (eventsStart s) = .next (eventsStart s) :=
    drainQueue_noneDue (by rw [hstart]; exact hmidi)
  obtain rfl := Host.Outcome.next.inj (ha.symm.trans h.midiRun)
  have hb : drainQueue .automation (eventsStart s) = .next (eventsStart s) :=
    drainQueue_noneDue (by rw [hstart]; exact hatm)
  exact Host.Outcome.next.inj (h.atmRun.symm.trans hb)

/-- Settles O49: the sound is made from the state the events and the panic leave. -/
theorem inactiveVoicesContributeNothing : Obligations.InactiveVoicesContributeNothing := by
  unfold Obligations.InactiveVoicesContributeNothing
  intro s t hnext hb hin h
  obtain ⟨a, b, hevents, ht⟩ := step_cases hnext hb h
  obtain ⟨hsched, -, hpend, -⟩ := hevents.keeps
  have hvoice := soundSample_voice b
  have hout := soundSample_out (s := b) (by rwa [hsched])
  rw [← ht] at hvoice hout
  rw [hsched] at hout
  refine ⟨⟨b, ?_, ?_⟩, fun hmidi hatm hp => ?_⟩
  · exact (congrArg (bindNext · (drainQueue .automation)) hevents.midiRun).trans hevents.atmRun
  · rw [← applyPanic_eq_panicApplied]
    exact ⟨hvoice, hout⟩
  · obtain ⟨_, _, _, hstart⟩ := eventsStart_frame s
    have hstays : (applyPanic b).voice = s.voice := by
      rw [applyPanic, if_neg (by rw [hpend, hp]; exact Bool.false_ne_true), hevents.eq_eventsStart hmidi hatm, hstart]
    rw [hstays] at hvoice hout
    refine ⟨fun v hoff => (hvoice v).trans (if_pos hoff), fun hoff => hout.trans ?_⟩
    rw [List.filter_eq_nil_iff.2 fun v _ => by rw [hoff v]; exact Bool.false_ne_true]
    rfl

/-! ### A whole block -/

/-- What one sample of an undisturbed block leaves: the block goes on unless it was the last. -/
structure SampleOfBlock (s t : State) : Prop where
  consistent : ControlConsistent t
  schedI : t.schedI.toNat = s.schedI.toNat + 1
  blockLen : t.blockLen = s.blockLen
  fault : t.fault = false
  agenda : t.agenda = s.agenda.tail
  last : s.schedI.toNat + 1 = s.blockLen.toNat → t.busy = false ∧ t.irqStatus.getLsbD 0 = true
  more : s.schedI.toNat + 1 ≠ s.blockLen.toNat → t.busy = true

theorem sampleOfBlock_of_step {s t : State} (hc : ControlConsistent s) (hb : s.busy = true) (hnext : SchedulerNext s)
    (hstep : step s = .next t) : SampleOfBlock s t := by
  obtain ⟨hfault, ⟨-, hlen, -⟩, hleft, -⟩ := hc.1 hb
  obtain ⟨-, -, hcount, -, -, hlast, hmore, -, hframe⟩ :=
    sampleWritesItsOutputWordOnly s t hnext hb (Nat.lt_of_lt_of_le hleft hlen) hstep
  have hlen' : t.blockLen = s.blockLen := (congrArg State.blockLen hframe :)
  have hfault' : t.fault = s.fault := (congrArg State.fault hframe :)
  have hagenda : t.agenda = s.agenda.tail := (congrArg State.agenda hframe :)
  exact {
    consistent := controlStateStaysConsistent s t hc hstep
    schedI := (congrArg BitVec.toNat hcount).trans (schedI_succ hc hb)
    blockLen := hlen'
    fault := hfault'.trans hfault
    agenda := hagenda
    last := hlast
    more := fun hgo => (hmore hgo).1 }

theorem schedulerNext_of_take {s : State} {n : Nat} (h : ∀ turn ∈ s.agenda.take (n + 1), turn = .sample) :
    SchedulerNext s := by
  unfold SchedulerNext
  cases hagenda : s.agenda with
  | nil => exact .inl rfl
  | cons turn rest => exact .inr (congrArg some (h turn (by simp [hagenda])))

/-- A sample always has a next state (R902). -/
theorem step_of_block {s : State} (hb : s.busy = true) (hnext : SchedulerNext s) : ∃ t, step s = .next t := by
  obtain ⟨_, _, _, _, hstep, -⟩ := sampleStep_drained (turnTaken s)
  rw [step_of_schedulerNext hnext, scheduler, if_pos (show (turnTaken s).busy = true from hb), hstep]
  exact ⟨_, rfl⟩

theorem run_of_step {s t : State} (n : Nat) (h : step s = .next t) :
    Sys2Proof.core.run (n + 1) s = Sys2Proof.core.run n t := by
  have hcore : Sys2Proof.core.step s = .next t := h
  simp only [Host.Core.run, hcore]

/-- A block with `n + 1` samples left ends after them, by induction on the samples left. -/
theorem run_block (n : Nat) {s : State} (hc : ControlConsistent s) (hb : s.busy = true)
    (hleft : s.blockLen.toNat = s.schedI.toNat + (n + 1)) (hturns : ∀ turn ∈ s.agenda.take (n + 1), turn = .sample) :
    ∃ t, Sys2Proof.core.run (n + 1) s = .next t ∧ t.busy = false ∧ t.schedI = s.blockLen ∧
      t.irqStatus.getLsbD 0 = true ∧ t.fault = false ∧ t.agenda = s.agenda.drop (n + 1) := by
  induction n generalizing s with
  | zero =>
    have hnext := schedulerNext_of_take hturns
    obtain ⟨t, hstep⟩ := step_of_block hb hnext
    have hsample := sampleOfBlock_of_step hc hb hnext hstep
    obtain ⟨hidle, hdone⟩ := hsample.last hleft.symm
    refine ⟨t, run_of_step 0 hstep, hidle, BitVec.eq_of_toNat_eq (hsample.schedI.trans hleft.symm), hdone,
      hsample.fault, ?_⟩
    rw [hsample.agenda, List.drop_one]
  | succ n ih =>
    have hnext := schedulerNext_of_take hturns
    obtain ⟨t, hstep⟩ := step_of_block hb hnext
    have hsample := sampleOfBlock_of_step hc hb hnext hstep
    have hsched := hsample.schedI
    have hrest : ∀ turn ∈ t.agenda.take (n + 1), turn = .sample := by
      intro turn hturn
      rw [hsample.agenda, ← List.drop_one, List.take_drop, Nat.add_comm 1] at hturn
      exact hturns turn (List.mem_of_mem_drop hturn)
    obtain ⟨u, hrun, hidle, hend, hdone, hfault, hagenda⟩ :=
      ih hsample.consistent (hsample.more (by omega)) (by rw [hsample.blockLen]; omega) hrest
    refine ⟨u, (run_of_step (n + 1) hstep).trans hrun, hidle, hend.trans hsample.blockLen, hdone, hfault, ?_⟩
    rw [hagenda, hsample.agenda, List.drop_tail]

/-- Settles O51: a block has a sample left while it runs. -/
theorem undisturbedBlockRunsToItsEnd : Obligations.UndisturbedBlockRunsToItsEnd := by
  unfold Obligations.UndisturbedBlockRunsToItsEnd
  intro s hc hb n hturns
  obtain ⟨-, -, hleft, -⟩ := hc.1 hb
  obtain ⟨m, hm⟩ : ∃ m, n = m + 1 := Nat.exists_eq_succ_of_ne_zero (by omega)
  rw [hm] at hturns ⊢
  exact run_block m hc hb (by omega) hturns

end Sys2Proof.Proofs
end

section
/-! SUPPORT. The voice chain against the unit commands (44_scheduler.md R810; 70_reset_and_hazards.md R1032): a host
that issues the commands of the chain while idle and a block that steps the voice stay equal but for BUSY, the operand
registers and RESULT. Settles O50. -/

namespace Sys2Proof.Proofs

-- One proof after another, as in the tests: proofs checked at once would hold too many threads.
set_option Elab.async false

open Sys2Proof.Machine Sys2Proof.Config Sys2Proof.Safety

/-! ### The host's state and the block's -/

/-- `x` is the accepting state `t` but for BUSY, the operand registers and RESULT, which no step of the chain reads. -/
def Mirrors (t x : State) : Prop := Accepting t ∧ ∃ b A R, x = { t with busy := b, arg := A, result := R }

theorem Mirrors.patch {t x : State} (h : Mirrors t x) : x.patch = t.patch := by
  obtain ⟨-, _, _, _, rfl⟩ := h
  rfl

theorem Mirrors.voice {t x : State} (h : Mirrors t x) : x.voice = t.voice := by
  obtain ⟨-, _, _, _, rfl⟩ := h
  rfl

/-- `g` writes voices only, and reads neither BUSY nor the operand registers nor RESULT. -/
def VoiceOnly (g : State → State) : Prop := ∀ (t : State) (b : Bool) (A : Vector Word 4) (R : Word),
  g { t with busy := b, arg := A, result := R } = { t with busy := b, arg := A, result := R, voice := (g t).voice }

/-- The host's action `f` and the block's `g` keep the two states equal. -/
def Runs (f : State → Host.Outcome State Machine.Fault Refusal) (g : State → State) : Prop :=
  ∀ t x, Mirrors t x → ∃ t', f t = .next t' ∧ Mirrors t' (g x)

theorem VoiceOnly.mirrors {g : State → State} (hg : VoiceOnly g) {t x : State} (h : Mirrors t x)
    (A : Vector Word 4) (R : Word) : Mirrors { g t with arg := A, result := R } (g x) := by
  obtain ⟨⟨hf, hb⟩, b, B, Q, rfl⟩ := h
  have hhost : g t = { t with voice := (g t).voice } := hg t t.busy t.arg t.result
  have hblock := hg t b B Q
  generalize (g t).voice = V at hhost hblock
  rw [hhost, hblock]
  exact ⟨⟨hf, hb⟩, b, B, Q, rfl⟩

/-- Actions that keep the two states equal do so one after another. -/
theorem runs_list {fs : List (State → Host.Outcome State Machine.Fault Refusal)} {gs : List (State → State)}
    (h : List.Forall₂ Runs fs gs) {t x : State} (htx : Mirrors t x) :
    ∃ t', fs.foldl bindNext (.next t) = .next t' ∧ Mirrors t' (gs.foldl (fun y g => g y) x) := by
  induction h generalizing t x with
  | nil => exact ⟨t, rfl, htx⟩
  | cons hfg _ ih =>
    obtain ⟨u, hu, hmirrors⟩ := hfg t x htx
    obtain ⟨t', ht', hend⟩ := ih hmirrors
    exact ⟨t', by rw [List.foldl_cons, bindNext, hu, ht'], hend⟩

/-! ### The commands of the chain -/

/-- No operands. -/
def noOperands : State → Word × Word := fun _ => (0#32, 0#32)

/-- `t` with the first two operands `ops`. -/
def withOperands (ops : State → Word × Word) (t : State) : State :=
  { t with arg := #v[(ops t).1, (ops t).2, t.arg[2], t.arg[3]] }

/-- The command `i` with its first two operands, as a host issues it. -/
def command (i : Instr) (ops : State → Word × Word) (t : State) : Host.Outcome State Machine.Fault Refusal :=
  exec i (withOperands ops t)

/-- A command on a unit there is has its effect (R301 step 7). -/
theorem command_ok {units : Nat} {voice : BitVec 8} {u : BitVec 4} {c : Word} {i : Instr}
    {effect : Fin NVOICE → Fin units → State → State} (hi : ∀ s, exec i s = .next (acceptVU c voice u units effect s))
    (hv : voice.toNat < NVOICE) (hu : u.toNat < units) (ops : State → Word × Word) {t : State} (ht : Accepting t) :
    command i ops t = .next (effect ⟨voice.toNat, hv⟩ ⟨u.toNat, hu⟩ (withOperands ops t)) := by
  obtain ⟨hf, hb⟩ := ht
  have haccept := acceptVU_ok c voice u units effect (withOperands ops t) hf hb hv hu
  rw [command, hi, haccept]

/-- The block does with `g` what the command does to the voices, whatever it leaves in RESULT. -/
theorem runs_command {units : Nat} {voice : BitVec 8} {u : BitVec 4} {c : Word} {i : Instr}
    {effect : Fin NVOICE → Fin units → State → State} (hi : ∀ s, exec i s = .next (acceptVU c voice u units effect s))
    (hv : voice.toNat < NVOICE) (hu : u.toNat < units) {ops : State → Word × Word} {g : State → State}
    (hg : VoiceOnly g) (heffect : ∀ t, ∃ R, effect ⟨voice.toNat, hv⟩ ⟨u.toNat, hu⟩ (withOperands ops t) =
      { g t with arg := (withOperands ops t).arg, result := R }) : Runs (command i ops) g := by
  intro t x htx
  obtain ⟨R, hR⟩ := heffect t
  exact ⟨_, (command_ok hi hv hu ops htx.1).trans (congrArg _ hR), hg.mirrors htx _ R⟩

/-- A voice's pitch for oscillator `o` (R810 steps 1 and 2). -/
def chainPitch (v : Fin NVOICE) (o : Fin NOSC) (t : State) : F32 :=
  fAdd (fAdd t.voice[v].note t.pitchBend) t.patch.osc[o].tune

/-- The operands of OSC_SET_UNISON_PITCH in the chain (R810 steps 1 and 2). -/
def pitchOperands (v : Fin NVOICE) (o : Fin NOSC) (t : State) : Word × Word :=
  (t.patch.osc[o].spread, chainPitch v o t)

/-- The increments of oscillator `o` for this sample (R810 steps 1 and 2). -/
def chainSetPitch (v : Fin NVOICE) (o : Fin NOSC) (t : State) : State :=
  setPitch v o t.patch.osc[o].spread (chainPitch v o t) t

/-! The steps of the filter's control for this sample, and the filter's step (R810 step 7). -/

def chainCutoffBase (v : Fin NVOICE) (t : State) : State := modFlt v (fltSetBase t.patch.flt.cutoff) t

def chainClearMod (v : Fin NVOICE) (t : State) : State := modFlt v (fun F => { F with mod := f0 }) t

def chainAddMod (v : Fin NVOICE) (t : State) : State :=
  modFlt v (fltAddMod (fMul t.patch.flt.envAmt t.voice[v].env[1].out)) t

def chainCutoff (v : Fin NVOICE) (t : State) : State := modFlt v (fltSetCutoff t.sampleRate t.patch.flt.os) t

def chainResonance (v : Fin NVOICE) (t : State) : State := modFlt v (fltSetRes t.patch.flt.resDb) t

def chainFltStep (v : Fin NVOICE) (m : F32) (t : State) : State := modFlt v (fun F => (fltStep t.patch.flt m F).1) t

/-- Modulation starts from none in every sample; no command does this (R810 step 7). -/
def clearMod (v : Fin NVOICE) (t : State) : Host.Outcome State Machine.Fault Refusal :=
  .next (withFlt t v { t.voice[v].flt with mod := f0 })

section
variable {voice : BitVec 8} (hv : voice.toNat < NVOICE)

theorem oscSetUnisonPitch_runs {u : BitVec 4} (hu : u.toNat < NOSC) :
    Runs (command (.oscSetUnisonPitch voice u) (pitchOperands ⟨voice.toNat, hv⟩ ⟨u.toNat, hu⟩))
      (chainSetPitch ⟨voice.toNat, hv⟩ ⟨u.toNat, hu⟩) :=
  runs_command (fun _ => rfl) hv hu (fun _ _ _ _ => rfl) fun t => ⟨t.result, rfl⟩

theorem oscFmMix_runs {u : BitVec 4} (hu : u.toNat < NOSC) (ops : State → Word × Word) :
    Runs (command (.oscFmMix voice u) ops) (mixFm ⟨voice.toNat, hv⟩ ⟨u.toNat, hu⟩) :=
  runs_command (fun _ => rfl) hv hu (fun _ _ _ _ => rfl) fun t => ⟨t.result, rfl⟩

theorem oscStep_runs {u : BitVec 4} (hu : u.toNat < NOSC) (ops : State → Word × Word) :
    Runs (command (.oscStep voice u) ops) (stepOsc ⟨voice.toNat, hv⟩ ⟨u.toNat, hu⟩) :=
  runs_command (fun _ => rfl) hv hu (fun _ _ _ _ => rfl) fun _ => ⟨_, rfl⟩

theorem envStep_runs {u : BitVec 4} (hu : u.toNat < NENV) (ops : State → Word × Word) :
    Runs (command (.envStep voice u) ops) (stepEnv ⟨voice.toNat, hv⟩ ⟨u.toNat, hu⟩) :=
  runs_command (fun _ => rfl) hv hu (fun _ _ _ _ => rfl) fun _ => ⟨_, rfl⟩

theorem mmApply_runs (ops : State → Word × Word) :
    Runs (command (.mmApply voice 0#4) ops) (applyVoice ⟨voice.toNat, hv⟩) :=
  runs_command (fun _ => rfl) hv Nat.one_pos (fun _ _ _ _ => rfl) fun _ => ⟨_, rfl⟩

theorem fltSetCutoffBase_runs : Runs (command (.fltSetCutoffBase voice 0#4) fun t => (t.patch.flt.cutoff, 0#32))
    (chainCutoffBase ⟨voice.toNat, hv⟩) :=
  runs_command (fun _ => rfl) hv Nat.one_pos (fun _ _ _ _ => rfl) fun t => ⟨t.result, rfl⟩

theorem clearMod_runs (v : Fin NVOICE) : Runs (clearMod v) (chainClearMod v) := by
  intro t x htx
  have hg : VoiceOnly (chainClearMod v) := fun _ _ _ _ => rfl
  exact ⟨_, rfl, hg.mirrors htx t.arg t.result⟩

theorem fltAddCutoffMod_runs : Runs (command (.fltAddCutoffMod voice 0#4) fun t =>
      (fMul t.patch.flt.envAmt t.voice[(⟨voice.toNat, hv⟩ : Fin NVOICE)].env[1].out, 0#32))
    (chainAddMod ⟨voice.toNat, hv⟩) :=
  runs_command (fun _ => rfl) hv Nat.one_pos (fun _ _ _ _ => rfl) fun t => ⟨t.result, rfl⟩

theorem fltSetCutoff_runs (ops : State → Word × Word) : Runs (command (.fltSetCutoff voice 0#4) ops)
    (chainCutoff ⟨voice.toNat, hv⟩) :=
  runs_command (fun _ => rfl) hv Nat.one_pos (fun _ _ _ _ => rfl) fun _ => ⟨_, rfl⟩

theorem fltSetResonance_runs : Runs (command (.fltSetResonance voice 0#4) fun t => (t.patch.flt.resDb, 0#32))
    (chainResonance ⟨voice.toNat, hv⟩) :=
  runs_command (fun _ => rfl) hv Nat.one_pos (fun _ _ _ _ => rfl) fun t => ⟨t.result, rfl⟩

/-- FLT_STEP on the input `m`, and what it leaves in RESULT. -/
theorem fltStep_mirrors (m : F32) {t x : State} (h : Mirrors t x) : ∃ t',
    command (.fltStep voice 0#4) (fun _ => (m, 0#32)) t = .next t' ∧
    Mirrors t' (chainFltStep ⟨voice.toNat, hv⟩ m x) ∧
    t'.result = (fltStep x.patch.flt m x.voice[(⟨voice.toNat, hv⟩ : Fin NVOICE)].flt).2 := by
  have hg : VoiceOnly (chainFltStep ⟨voice.toNat, hv⟩ m) := fun _ _ _ _ => rfl
  refine ⟨_, command_ok (effect := fun v _ s => setResult (fltStep s.patch.flt s.arg[0] s.voice[v].flt).2
    (modFlt v (fun F => (fltStep s.patch.flt s.arg[0] F).1) s)) (fun _ => rfl) hv Nat.one_pos _ h.1,
    hg.mirrors h _ _, ?_⟩
  rw [h.patch, h.voice]
  rfl

end

/-! ### The three parts of the chain -/

/-- Steps 1 to 4: setting the increments leaves the note that the second one reads. -/
theorem voiceOscillators_eq (v : Fin NVOICE) (x : State) : voiceOscillators v x =
    stepOsc v 1 (stepOsc v 0 (mixFm v 1 (mixFm v 0 (chainSetPitch v 1 (chainSetPitch v 0 x))))) := by
  have hnote : (chainSetPitch v 0 x).voice[v].note = x.voice[v].note := by
    rw [chainSetPitch, setPitch, modOsc, modVoice_voice_same]
  have hpitch : chainPitch v 1 (chainSetPitch v 0 x) =
      fAdd (fAdd x.voice[v].note x.pitchBend) x.patch.osc[1].tune := by
    rw [chainPitch, hnote]
    rfl
  rw [chainSetPitch, hpitch]
  rfl

/-- Steps 1 to 5 of the chain as commands: the oscillators, then the envelopes (R810). -/
def sourceCommands (voice : BitVec 8) (v : Fin NVOICE) : List (State → Host.Outcome State Machine.Fault Refusal) :=
  [command (.oscSetUnisonPitch voice 0#4) (pitchOperands v 0),
   command (.oscSetUnisonPitch voice 1#4) (pitchOperands v 1),
   command (.oscFmMix voice 0#4) noOperands, command (.oscFmMix voice 1#4) noOperands,
   command (.oscStep voice 0#4) noOperands, command (.oscStep voice 1#4) noOperands,
   command (.envStep voice 0#4) noOperands, command (.envStep voice 1#4) noOperands,
   command (.envStep voice 2#4) noOperands, command (.envStep voice 3#4) noOperands,
   command (.envStep voice 4#4) noOperands, command (.envStep voice 5#4) noOperands]

/-- The same steps of the block. -/
def sourceSteps (v : Fin NVOICE) : List (State → State) :=
  [chainSetPitch v 0, chainSetPitch v 1, mixFm v 0, mixFm v 1, stepOsc v 0, stepOsc v 1,
   stepEnv v 0, stepEnv v 1, stepEnv v 2, stepEnv v 3, stepEnv v 4, stepEnv v 5]

theorem sourceSteps_eq (v : Fin NVOICE) (x : State) :
    (sourceSteps v).foldl (fun y g => g y) x = voiceEnvelopes v (voiceOscillators v x) := by
  rw [voiceOscillators_eq]
  rfl

/-- Step 7 of the chain as commands, up to the filter's step (R810). -/
def controlCommands (voice : BitVec 8) (v : Fin NVOICE) : List (State → Host.Outcome State Machine.Fault Refusal) :=
  [command (.fltSetCutoffBase voice 0#4) (fun t => (t.patch.flt.cutoff, 0#32)), clearMod v,
   command (.fltAddCutoffMod voice 0#4) (fun t => (fMul t.patch.flt.envAmt t.voice[v].env[1].out, 0#32)),
   command (.fltSetCutoff voice 0#4) noOperands,
   command (.fltSetResonance voice 0#4) (fun t => (t.patch.flt.resDb, 0#32))]

/-- The same steps of the block. -/
def controlSteps (v : Fin NVOICE) : List (State → State) :=
  [chainCutoffBase v, chainClearMod v, chainAddMod v, chainCutoff v, chainResonance v]

/-- Together they set the filter's controls for the sample (R810 step 7). -/
theorem controlSteps_eq (v : Fin NVOICE) (x : State) : (controlSteps v).foldl (fun y g => g y) x =
    modFlt v (fun _ => voiceFltControl x.sampleRate x.patch x.voice[v]) x := by
  simp [controlSteps, chainResonance, chainCutoff, chainAddMod, chainClearMod, chainCutoffBase, modFlt, modVoice, vmod,
    voiceFltControl]

section
variable {voice : BitVec 8} (hv : voice.toNat < NVOICE)

theorem sourceCommands_run : List.Forall₂ Runs (sourceCommands voice ⟨voice.toNat, hv⟩)
    (sourceSteps ⟨voice.toNat, hv⟩) := by
  have osc0 : (0#4).toNat < NOSC := by decide
  have osc1 : (1#4).toNat < NOSC := by decide
  have env (u : BitVec 4) (hu : u.toNat < NENV) := envStep_runs hv hu noOperands
  exact .cons (oscSetUnisonPitch_runs hv osc0) (.cons (oscSetUnisonPitch_runs hv osc1)
    (.cons (oscFmMix_runs hv osc0 _) (.cons (oscFmMix_runs hv osc1 _)
    (.cons (oscStep_runs hv osc0 _) (.cons (oscStep_runs hv osc1 _)
    (.cons (env 0#4 (by decide)) (.cons (env 1#4 (by decide)) (.cons (env 2#4 (by decide))
    (.cons (env 3#4 (by decide)) (.cons (env 4#4 (by decide)) (.cons (env 5#4 (by decide)) .nil)))))))))))

theorem controlCommands_run : List.Forall₂ Runs (controlCommands voice ⟨voice.toNat, hv⟩)
    (controlSteps ⟨voice.toNat, hv⟩) :=
  .cons (fltSetCutoffBase_runs hv) (.cons (clearMod_runs _) (.cons (fltAddCutoffMod_runs hv)
    (.cons (fltSetCutoff_runs hv _) (.cons (fltSetResonance_runs hv) .nil))))

/-- The filter's step on the mix ends step 7; RESULT takes the output (R810, R630). -/
theorem filterStep_run {t x : State} (h : Mirrors t x) : ∃ b,
    (controlCommands voice ⟨voice.toNat, hv⟩ ++ [command (.fltStep voice 0#4) fun _ =>
      (voiceMix t.patch t.voice[(⟨voice.toNat, hv⟩ : Fin NVOICE)], 0#32)]).foldl bindNext (.next t) = .next b ∧
    Mirrors b (voiceFilter ⟨voice.toNat, hv⟩ x).2 ∧ b.result = (voiceFilter ⟨voice.toNat, hv⟩ x).1 := by
  obtain ⟨a, ha, hcontrol⟩ := runs_list (controlCommands_run hv) h
  rw [controlSteps_eq] at hcontrol
  rw [← h.patch, ← h.voice, List.foldl_append, ha]
  obtain ⟨b, hb, hmirrors, hresult⟩ :=
    fltStep_mirrors hv (voiceMix x.patch x.voice[(⟨voice.toNat, hv⟩ : Fin NVOICE)]) hcontrol
  refine ⟨b, hb, ?_, ?_⟩
  · rw [chainFltStep, modFlt, modFlt, modVoice_modVoice] at hmirrors
    exact hmirrors
  · rw [hresult, modFlt, modVoice_voice_same]
    rfl

end

/-- Stepping a voice leaves every other voice. -/
theorem voiceStep_other {v w : Fin NVOICE} (hw : w ≠ v) (s : State) : (voiceStep v s).2.voice[w] = s.voice[w] := by
  obtain ⟨g, hg⟩ := voiceStep_actsOn v s
  rw [show voiceStep v s = _ from hg s.voice]
  exact Vector.getElem_set_ne v.isLt w.isLt fun h => hw (Fin.ext h.symm)

/-- Settles O50: the block's steps and the host's commands keep the two states equal. -/
theorem voiceChainIsTheCommandSequence : Obligations.VoiceChainIsTheCommandSequence := by
  unfold Obligations.VoiceChainIsTheCommandSequence
  intro s voice hv running hs
  have hstart : Mirrors s { s with busy := running } := ⟨hs, running, s.arg, s.result, rfl⟩
  obtain ⟨a, ha, hsources⟩ := runs_list (sourceCommands_run hv) hstart
  rw [sourceSteps_eq] at hsources
  obtain ⟨b, hb, hfilter, hresult⟩ := filterStep_run hv hsources
  obtain ⟨t, ht, hmatrix⟩ := runs_list (.cons (mmApply_runs hv noOperands) .nil) hfilter
  have hend : Mirrors t (voiceStep ⟨voice.toNat, hv⟩ { s with busy := running }).2 := hmatrix
  obtain ⟨V, hframe⟩ := voiceStep_frame ⟨voice.toNat, hv⟩ { s with busy := running }
  have hvoice : V = t.voice := by rw [← hend.voice, hframe]
  refine ⟨a, b, t, ha, hb, ht, ?_, ?_, fun w hw => ?_⟩
  · rw [hframe, hvoice]
  · rw [hresult, ← hend.voice]
    rfl
  · rw [← hend.voice]
    exact voiceStep_other hw _

end Sys2Proof.Proofs
end

section
/-! SUPPORT. A model never stops (60_exceptions.md R902). Settles O6. -/

namespace Sys2Proof.Proofs

-- One proof after another, as in the tests: proofs checked at once would hold too many threads.
set_option Elab.async false

open Sys2Proof.Machine Sys2Proof.Safety

/-- Settles O6: every instruction has a next state, so by induction on the entries left the events of a queue have one,
and with them every turn. -/
theorem everyStepHasANextState : Obligations.EveryStepHasANextState := by
  unfold Obligations.EveryStepHasANextState
  intro s
  unfold SafeStep step
  split
  · obtain ⟨t, ht, -⟩ := scheduler_storeChanges s
    exact ⟨t, ht⟩
  next turn rest _ =>
    obtain ⟨t, ht, -⟩ := takeTurn_storeChanges turn { s with agenda := rest }
    exact ⟨t, ht⟩

end Sys2Proof.Proofs
end

section
/-! SUPPORT. Fault entry (60_exceptions.md R910-R914), field by field. Settles O9. -/

namespace Sys2Proof.Proofs

-- One proof after another, as in the tests: proofs checked at once would hold too many threads.
set_option Elab.async false

open Sys2Proof.Machine Sys2Proof.Config Sys2Proof.Safety

/-! ### The record and the end of a block -/

/-- The first fault makes the record (R910). -/
theorem recordFault_first (c : Cause) (info loc : Word) {s : State} (hf : s.fault = false) :
    recordFault c info loc s =
      { s with fault := true, errCause := c, errInfo := info, errLoc := loc,
               irqStatus := irqSetFault s.irqStatus } := by
  rw [recordFault, if_neg (by simp [hf])]

/-- A later fault changes no record (R912). -/
theorem recordFault_later (c : Cause) (info loc : Word) {s : State} (hf : s.fault = true) :
    recordFault c info loc s = s := by
  rw [recordFault, if_pos hf]

/-- No block runs after a fault, a panic does not outlive its block, and it is applied only there (R914). -/
theorem abortBlock_eq (s : State) : abortBlock s =
    { s with busy := false
             panicPend := !s.busy && s.panicPend
             voice := if s.busy && s.panicPend then (panicKill s).voice else s.voice } := by
  unfold abortBlock
  cases hb : s.busy with
  | false =>
    rw [if_neg Bool.false_ne_true]
    show s = { s with busy := false }
    rw [← hb]
  | true =>
    rw [if_pos rfl]
    cases s.panicPend <;> rfl

/-- All that taking a fault does (R910, R912, R914). -/
theorem raise_eq (c : Cause) (info loc : Word) (s : State) : raise c info loc s =
    { s with busy := false
             fault := true
             panicPend := !s.busy && s.panicPend
             errCause := if s.fault then s.errCause else c
             errInfo := if s.fault then s.errInfo else info
             errLoc := if s.fault then s.errLoc else loc
             irqStatus := if s.fault then s.irqStatus else irqSetFault s.irqStatus
             voice := if s.busy && s.panicPend then (panicKill s).voice else s.voice } := by
  rw [raise, abortBlock_eq]
  cases hf : s.fault with
  | false => rw [recordFault_first c info loc hf]; rfl
  | true => rw [recordFault_later c info loc hf]; simp [hf]

/-- A panic that waits in a running block leaves of every voice all but its envelopes, which it kills (R841, R914). -/
theorem raise_panic (c : Cause) (info loc : Word) {s : State} (hb : s.busy = true) (hp : s.panicPend = true)
    (v : Fin NVOICE) :
    { (raise c info loc s).voice[v] with env := s.voice[v].env } = s.voice[v] ∧
    ∀ e : Fin NENV, (raise c info loc s).voice[v].env[e] = killed s.voice[v].env[e] := by
  have hvoice : (raise c info loc s).voice = (modAllEnvs envKill s).voice := by simp [raise_eq, hb, hp, panicKill]
  rw [hvoice]
  exact (modAllEnvs_spec envKill s).2 v

/-- Settles O9: each clause is read off the state that fault entry leaves. -/
theorem faultEntryRecordsTheFirstFault : Obligations.FaultEntryRecordsTheFirstFault := by
  unfold Obligations.FaultEntryRecordsTheFirstFault
  intro c info loc s t
  have ht : t = _ := raise_eq c info loc s
  refine ⟨fun hf => ?first, fun hf => ?later, ?fault, ?busy, fun hb => ?ended, fun hb => ?idle,
    fun hb hp => raise_panic c info loc hb hp, fun h => ?voices, ?frame⟩
  case first => simp [ht, hf, irqSetFault]
  case later => simp [ht, hf]
  case fault => rw [ht]
  case busy => rw [ht]
  case ended => simp [ht, hb]
  case idle => simp [ht, hb]
  case voices => rcases h with h | h <;> simp [ht, h]
  case frame => rw [ht]

end Sys2Proof.Proofs
end

section
/-! SUPPORT. Interrupt bits (10_state.md R116; 60_exceptions.md R921, R922): what the engine does to IRQ_STATUS only
sets bits, so a pending bit goes only with its W1C write or the reset input. Settles O14. -/

namespace Sys2Proof.Proofs

-- One proof after another, as in the tests: proofs checked at once would hold too many threads.
set_option Elab.async false

open Sys2Proof.Machine Sys2Proof.Config Sys2Proof.Safety

/-! ### Pending bits -/

/-- Every interrupt bit pending in `s` is pending in `t`. -/
def StillPending (s t : State) : Prop := s.irqStatus &&& t.irqStatus = s.irqStatus

theorem stillPending_of_eq {s t : State} (h : t.irqStatus = s.irqStatus) : StillPending s t := by
  rw [StillPending, h, BitVec.and_self]

/-- Setting bits clears none. -/
theorem stillPending_of_or {s t : State} {b : BitVec 3} (h : t.irqStatus = s.irqStatus ||| b) : StillPending s t := by
  rw [StillPending, h]
  ext i hi
  simp +contextual

theorem StillPending.trans {s t u : State} (h : StillPending s t) (k : StillPending t u) : StillPending s u := by
  unfold StillPending at *
  rw [← h, BitVec.and_assoc, k]

theorem raise_stillPending (c : Cause) (info loc : Word) (s : State) : StillPending s (raise c info loc s) := by
  cases hf : s.fault with
  | false => exact stillPending_of_or (b := 2#3) (by simp [raise_eq, hf, irqSetFault])
  | true => exact stillPending_of_eq (by simp [raise_eq, hf])

theorem raiseAccess_stillPending (c : Cause) (info : Word) (s : State) : StillPending s (raiseAccess c info s) :=
  raise_stillPending c info _ s

/-! ### Instructions -/

theorem acceptVU_stillPending {units : Nat} (c : Word) (voice : BitVec 8) (unit : BitVec 4)
    {f : Fin NVOICE → Fin units → State → State} (s : State) (hf : ∀ v u, StillPending s (f v u s)) :
    StillPending s (acceptVU c voice unit units f s) := by
  rcases acceptVU_cases c voice unit units f s with
    ⟨-, h⟩ | ⟨-, -, h⟩ | ⟨-, -, -, h⟩ | ⟨-, -, -, -, h⟩ | ⟨-, -, hv, hu, h⟩
  · rw [h]; exact stillPending_of_eq rfl
  · rw [h]; exact raiseAccess_stillPending _ _ s
  · rw [h]; exact raiseAccess_stillPending _ _ s
  · rw [h]; exact raiseAccess_stillPending _ _ s
  · rw [h]; exact hf _ _

theorem acceptG_stillPending (c : Word) {f : State → State} (s : State) (hf : StillPending s (f s)) :
    StillPending s (acceptG c f s) := by
  rcases acceptG_cases c f s with ⟨-, h⟩ | ⟨-, -, h⟩ | ⟨-, -, h⟩
  · rw [h]; exact stillPending_of_eq rfl
  · rw [h]; exact raiseAccess_stillPending _ _ s
  · rw [h]; exact hf

theorem runCommand_stillPending (s : State) : StillPending s (runCommand s) := by
  unfold runCommand
  split
  · exact raise_stillPending _ _ _ s
  · exact stillPending_of_eq rfl

theorem onVoice_irqStatus (target : BitVec 16) {f : Fin NVOICE → State → State} (s : State)
    (hf : ∀ v, (f v s).irqStatus = s.irqStatus) : (onVoice target f s).irqStatus = s.irqStatus := by
  unfold onVoice
  split
  · exact hf _
  · rfl

/-- No instruction writes IRQ_STATUS but by a fault it raises (R314, R910). -/
theorem exec_stillPending {i : Instr} {s t : State} (h : exec i s = .next t) : StillPending s t := by
  cases i <;> obtain rfl := Host.Outcome.next.inj h
  case nop | evPitchBend => exact stillPending_of_eq rfl
  case run => exact acceptG_stillPending _ s (runCommand_stillPending s)
  case allNotesOff => exact acceptG_stillPending _ s (stillPending_of_eq rfl)
  case panic =>
    refine stillPending_of_eq ?_
    split
    · rfl
    · split <;> rfl
  case errClear =>
    split
    · exact stillPending_of_eq rfl
    · split
      · exact raiseAccess_stillPending _ _ s
      · exact stillPending_of_eq rfl
  case evNoteOn | evNoteOff => exact stillPending_of_eq (onVoice_irqStatus _ s fun _ => rfl)
  case evControllerM => exact stillPending_of_eq (by split <;> rfl)
  case evAutomation tick target value =>
    refine stillPending_of_eq ?_
    split
    next l hl =>
      obtain ⟨p, d, hframe⟩ := writeLoc_automatable_frame l value s (automationTarget_automatable hl)
      rw [hframe]
    next => rfl
  all_goals exact acceptVU_stillPending _ _ _ s fun _ _ => stillPending_of_eq rfl

theorem commandWrite_stillPending {c : Word} {s t : State} (h : commandWrite c s = .next t) : StillPending s t := by
  unfold commandWrite at h
  split at h
  · exact exec_stillPending h
  · obtain rfl := Host.Outcome.next.inj h
    split
    · exact stillPending_of_eq rfl
    · exact raiseAccess_stillPending _ _ s

/-! ### Bus accesses -/

/-- IRQ_STATUS has one address (R116). -/
theorem decodeAddr_irqStatus {a : Nat} (h : decodeAddr a = some .irqStatus) : a = 0x03C := by
  have only : ∀ p ∈ globalMap, p.2 = .irqStatus → p.1 = 0x03C := by decide
  rcases writable_globalOrWavetable (s := State.reset) h rfl with hmem | ⟨_, _, hl, _⟩
  · exact only _ hmem rfl
  · cases hl

theorem writeLoc_irqStatus (s : State) (x : Word) {l : Loc} (hl : l ≠ .irqStatus) :
    (writeLoc s x l).irqStatus = s.irqStatus := by
  cases l
  case irqStatus => exact absurd rfl hl
  case wtBlen bank => cases bank <;> rfl
  all_goals rfl

theorem busRead_stillPending (a : Word) (s : State) : StillPending s (busRead a s) := by
  have hfault (c : Cause) : StillPending s (faultRead c a s) := raiseAccess_stillPending c a s
  unfold busRead
  split
  · exact hfault _
  · split
    · exact hfault _
    · refine stillPending_of_eq ?_
      unfold readEffect
      split <;> rfl

/-- A write to any other address raises a fault, reaches the command decoder or stores a word elsewhere (R202). -/
theorem busWrite_stillPending {a x : Word} {s t : State} (ha : a ≠ 0x03C#32) (h : busWrite a x s = .next t) :
    StillPending s t := by
  have hfault {c : Cause} (hraise : (.next (raiseAccess c a s) : Host.Outcome State Fault Refusal) = .next t) :
      StillPending s t := by
    obtain rfl := Host.Outcome.next.inj hraise
    exact raiseAccess_stillPending c a s
  unfold busWrite at h
  split at h
  · exact hfault h
  split at h
  · exact hfault h
  next l hl =>
    have hne : l ≠ .irqStatus := fun he => ha (BitVec.eq_of_toNat_eq (decodeAddr_irqStatus (he ▸ hl)))
    split at h
    · exact hfault h
    unfold storeLoc at h
    split at h
    · exact commandWrite_stillPending h
    · obtain rfl := Host.Outcome.next.inj h
      exact stillPending_of_eq (writeLoc_irqStatus s x hne)

/-- The W1C write: the bits that are 1 in the word are cleared, in a block too (R116, R212, R921). -/
theorem busWrite_irqStatus (x : Word) (s : State) : busWrite 0x03C#32 x s =
    .next { s with irqStatus := s.irqStatus &&& ~~~(x.extractLsb' 0 3) } :=
  busWrite_mapped (l := .irqStatus) x s (by decide) rfl (.inr rfl)

/-! ### One step -/

theorem swapCheck_stillPending (s : State) : StillPending s (swapCheck s) := by
  unfold swapCheck
  split
  · exact stillPending_of_or rfl
  · exact stillPending_of_eq rfl

theorem finishSample_stillPending (x : F32) (s : State) : StillPending s (finishSample x s) := by
  by_cases hlast : s.schedI.toNat + 1 = s.blockLen.toNat
  · exact stillPending_of_or (finishSample_last x hlast).2
  · exact stillPending_of_eq (finishSample_more x hlast).2

/-- A sample sets at most WT_SWAPPED and DONE (R233, R807). -/
theorem scheduler_stillPending {s t : State} (h : scheduler s = .next t) : StillPending s t := by
  unfold scheduler at h
  split at h
  · obtain ⟨x, u, hu, hsound⟩ := sampleStep_cases s
    obtain rfl := Host.Outcome.next.inj (hu.symm.trans h)
    obtain ⟨-, hirq, -⟩ := hsound.keeps
    exact ((swapCheck_stillPending s).trans (stillPending_of_eq hirq)).trans (finishSample_stillPending x u)
  · obtain rfl := Host.Outcome.next.inj h
    exact stillPending_of_eq rfl

theorem takeTurn_stillPending {turn : Turn} {s t : State} (hw1c : ∀ x, turn ≠ .write 0x03C#32 x)
    (hreset : turn ≠ .reset) (h : takeTurn turn s = .next t) : StillPending s t := by
  cases turn with
  | read a =>
    obtain rfl := Host.Outcome.next.inj h
    exact busRead_stillPending a s
  | write a x => exact busWrite_stillPending (fun ha => hw1c x (ha ▸ rfl)) h
  | sample => exact scheduler_stillPending h
  | reset => exact absurd rfl hreset

/-- A step whose turn is neither the W1C write nor the reset input leaves pending bits pending (R921). -/
theorem step_stillPending {s t : State} (h : step s = .next t)
    (hw1c : ∀ x rest, s.agenda ≠ .write 0x03C#32 x :: rest) (hreset : ∀ rest, s.agenda ≠ .reset :: rest) :
    StillPending s t := by
  unfold step at h
  split at h
  · exact scheduler_stillPending h
  next turn rest hagenda =>
    have hturn : ∀ x, turn ≠ .write 0x03C#32 x := fun x hx => hw1c x rest (hx ▸ hagenda)
    exact takeTurn_stillPending (s := { s with agenda := rest }) hturn (fun hr => hreset rest (hr ▸ hagenda)) h

/-! ### The interrupt output (R922) -/

/-- Three bits are not all 0 exactly where one of them is 1. -/
theorem ne_zero_eq_or_bits (b : BitVec 3) : (b != 0#3) = (b.getLsbD 0 || b.getLsbD 1 || b.getLsbD 2) := by
  revert b
  decide

theorem irqLine_eq (s : State) : irqLine s = ((s.irqStatus.getLsbD 0 && s.irqEnable.getLsbD 0) ||
    (s.irqStatus.getLsbD 1 && s.irqEnable.getLsbD 1) || (s.irqStatus.getLsbD 2 && s.irqEnable.getLsbD 2)) := by
  simp only [irqLine, ne_zero_eq_or_bits, BitVec.getLsbD_and]

/-- Settles O14: the W1C write is one turn, and the other turns only set bits. -/
theorem interruptBitsAreClearedOnlyByTheHost : Obligations.InterruptBitsAreClearedOnlyByTheHost := by
  unfold Obligations.InterruptBitsAreClearedOnlyByTheHost
  intro s t h
  refine ⟨fun x rest hagenda => ?_, step_stillPending h, irqLine_eq t⟩
  rw [step, hagenda] at h
  exact (Host.Outcome.next.inj ((busWrite_irqStatus x { s with agenda := rest }).symm.trans h)).symm

end Sys2Proof.Proofs
end

section
/-! SUPPORT. The state after reset (70_reset_and_hazards.md R1000, R1001). The reset columns of 10_state.md list
few words, so most registers lie between two of them or in a part of a voice block without any; the others are read
row by row.
Settles O17, O18 and O54. -/

namespace Sys2Proof.Proofs

-- One proof after another, as in the tests: proofs checked at once would hold too many threads.
set_option Elab.async false

open Sys2Proof.Machine Sys2Proof.Config Sys2Proof.Safety

/-! ### The arrays after reset -/

@[simp] theorem reset_voice {i : Nat} (h : i < NVOICE) : State.reset.voice[i] = Voice.reset :=
  Vector.getElem_replicate h

@[simp] theorem resetInput_voice (s : State) {i : Nat} (h : i < NVOICE) :
    (resetInput s).voice[i] = Voice.reset := Vector.getElem_replicate h

@[simp] theorem resetInput_envPatch (s : State) {i : Nat} (h : i < NENV) :
    (resetInput s).patch.env[i] = EnvPatch.reset := Vector.getElem_replicate h

@[simp] theorem voiceReset_env {i : Nat} (h : i < NENV) : Voice.reset.env[i] = Env.reset :=
  Vector.getElem_replicate h

@[simp] theorem voiceReset_osc {i : Nat} (h : i < NOSC) : Voice.reset.osc[i] = Osc.reset :=
  Vector.getElem_replicate h

@[simp] theorem voiceReset_live {i : Nat} (h : i < NDEST) : Voice.reset.live[i] = f0 :=
  Vector.getElem_replicate h

@[simp] theorem voiceReset_list {i : Nat} (h : i < NROUTE) : Voice.reset.list[i] = Route.reset :=
  Vector.getElem_replicate h

@[simp] theorem oscReset_phase {i : Nat} (h : i < NUNI_MAX) : Osc.reset.phase[i] = f0 :=
  Vector.getElem_replicate h

@[simp] theorem oscReset_inc {i : Nat} (h : i < NUNI_MAX) : Osc.reset.inc[i] = f0 :=
  Vector.getElem_replicate h

@[simp] theorem voiceReset_sec {i : Nat} (h : i < NSEC) : Voice.reset.flt.sec[i] = Section.reset :=
  Vector.getElem_replicate h

/-! ### The reset columns -/

/-- Between two addresses of the reset table every reset column is 0. -/
theorem resetWord_between (lo hi : Nat) {a : Nat} (hlo : lo < a) (hhi : a < hi) (hend : hi ≤ 0x10000 := by decide)
    (hgap : ∀ p ∈ resetTable, p.1 ≤ lo ∨ hi ≤ p.1 := by decide) : resetWord a = 0#32 := by
  have hnone : resetTable.lookup a = none := by
    refine List.lookup_eq_none_iff.2 fun p hp => ?_
    have hne : a ≠ p.1 := by have := hgap p hp; omega
    simpa using hne
  rw [resetWord, if_pos (hhi.trans_le hend), hnone, Option.getD_none]

theorem resetWord_voice (v : Fin NVOICE) {f : Nat} (hf : f < 0x1000) : resetWord (voiceBase v + f) =
    if 0x040 ≤ f ∧ f < 0x1C0 then (envResetTable.lookup (f % 0x40)).getD 0#32 else 0#32 := by
  have hoffset : (voiceBase v + f) % 0x1000 = f := by unfold voiceBase; omega
  have hgroup : (voiceBase v + f) % 0x40 = f % 0x40 := by unfold voiceBase; omega
  have hblock : ¬ voiceBase v + f < 0x10000 := by unfold voiceBase; omega
  rw [resetWord, if_neg hblock, hoffset, hgroup]

/-- In a voice block only the envelope groups hold words that are not 0 after reset (R141-R145). -/
theorem resetWord_outside_env (v : Fin NVOICE) {a : Nat} (f : Nat) (ha : a = voiceBase v + f)
    (hf : f < 0x040 ∨ 0x1C0 ≤ f ∧ f < 0x1000) : resetWord a = 0#32 := by
  rw [ha, resetWord_voice v (by omega), if_neg (by omega)]

theorem resetWord_env (v : Fin NVOICE) (e : Fin NENV) {off : Nat} (hoff : off < 0x40) :
    resetWord (voiceBase v + 0x040 + e.val * 0x40 + off) = (envResetTable.lookup off).getD 0#32 := by
  have he : e.val < 6 := e.isLt
  have haddr : voiceBase v + 0x040 + e.val * 0x40 + off = voiceBase v + (0x040 + e.val * 0x40 + off) := by omega
  have hgroup : (0x040 + e.val * 0x40 + off) % 0x40 = off := by omega
  rw [haddr, resetWord_voice v (by omega), if_pos (by omega), hgroup]

/-! ### The registers after the reset input -/

/-- After the reset input the register `r` reads the word of its reset column (R1000). -/
def ReadsResetWord (s : State) (r : Register) : Prop := r.read (resetInput s) = resetWord r.addr

/-- Every register of the list reads the word of its reset column. -/
def ReadResetWords (s : State) (rs : List Register) : Prop := ∀ r ∈ rs, ReadsResetWord s r

@[simp] theorem readResetWords_nil (s : State) : ReadResetWords s [] := fun _ h => absurd h List.not_mem_nil

@[simp] theorem readResetWords_cons (s : State) (r : Register) (rs : List Register) :
    ReadResetWords s (r :: rs) ↔ r.read (resetInput s) = resetWord r.addr ∧ ReadResetWords s rs :=
  List.forall_mem_cons

theorem ReadResetWords.append {s : State} {rs qs : List Register} (h : ReadResetWords s rs)
    (k : ReadResetWords s qs) : ReadResetWords s (rs ++ qs) := List.forall_mem_append.2 ⟨h, k⟩

theorem ReadResetWords.flatMap {s : State} {n : Nat} {f : Fin n → List Register} (h : ∀ i, ReadResetWords s (f i)) :
    ReadResetWords s ((List.finRange n).flatMap f) := List.forall_mem_flatMap.2 fun i _ => h i

theorem ReadResetWords.map {s : State} {n : Nat} {f : Fin n → Register} (h : ∀ i, ReadsResetWord s (f i)) :
    ReadResetWords s ((List.finRange n).map f) := List.forall_mem_map.2 fun i _ => h i

theorem readsResetWord_of_between {s : State} {r : Register} (lo hi : Nat) (hread : r.read (resetInput s) = 0#32)
    (hlo : lo < r.addr) (hhi : r.addr < hi) (hend : hi ≤ 0x10000 := by decide)
    (hgap : ∀ p ∈ resetTable, p.1 ≤ lo ∨ hi ≤ p.1 := by decide) : ReadsResetWord s r :=
  hread.trans (resetWord_between lo hi hlo hhi hend hgap).symm

theorem argRegister_reset (s : State) (k : Fin 4) : ReadsResetWord s (argRegister k) :=
  readsResetWord_of_between 0x010 0x044 (Vector.getElem_replicate k.isLt)
    (show 0x010 < 0x01C + 4 * k.val by omega) (show 0x01C + 4 * k.val < 0x044 by omega)

theorem globalRegisters_reset (s : State) : ReadResetWords s globalRegisters := by
  simp only [globalRegisters, List.cons_append, List.nil_append, readResetWords_cons, readResetWords_nil, and_true]
  and_intros <;> rfl

/-- Every voice there is is free after reset (R1001). -/
theorem freeBit_reset (s : State) (j : Nat) : freeBit (resetInput s) j = if j < NVOICE then 1 else 0 := by
  by_cases h : j < NVOICE
  · simp [freeBit, h, Env.reset]
  · simp [freeBit, h]

theorem voiceFreeRegister_reset (s : State) (w : Fin 8) : ReadsResetWord s (voiceFreeRegister w) := by
  have hwords : ∀ w : Fin 8, BitVec.ofNat 32 (∑ j ∈ Finset.range 32,
      (if 32 * w.val + j < NVOICE then 1 else 0) * 2 ^ j) = resetWord (0x080 + 4 * w.val) := by decide
  rw [ReadsResetWord, voiceFreeRegister_read]
  simp only [freeBit_reset]
  exact hwords w

theorem envPatchRegisters_reset (s : State) (e : Fin NENV) : ReadResetWords s (envPatchRegisters e) := by
  have he : e.val < 6 := e.isLt
  have hzero (off : Nat) (hoff : off < 0x20) : resetWord (0x100 + e.val * 0x20 + off) = 0#32 :=
    resetWord_between 0x080 0x200 (by omega) (by omega)
  simp only [envPatchRegisters, readResetWords_cons, readResetWords_nil, and_true, Fin.getElem_fin,
    resetInput_envPatch, hzero, Nat.reduceLT]
  and_intros <;> rfl

/-- OSC_CFG after reset: SAW and OFF, one lane, no sync (R127). -/
theorem oscCfg_reset :
    packed [(0, waves.idxOf .saw), (4, 1), (8, 0)] = resetWord 0x200 ∧
    packed [(0, waves.idxOf .off), (4, 1), (8, 0)] = resetWord 0x220 := by decide

theorem oscPatchRegisters_reset (s : State) : ∀ o : Fin NOSC, ReadResetWords s (oscPatchRegisters o) := by
  obtain ⟨hcfg0, hcfg1⟩ := oscCfg_reset
  simp only [Fin.forall_fin_two, oscPatchRegisters, readResetWords_cons, readResetWords_nil, and_true]
  refine ⟨⟨hcfg0, ?_⟩, hcfg1, ?_⟩ <;> and_intros <;> rfl

/-- FLT_CFG after reset: OFF, two poles, no oversampling (R128). -/
theorem fltCfg_reset :
    packed [(0, fltTypes.idxOf .off), (4, poleCounts.idxOf .two + 1), (8, factors.idxOf .x1)] = resetWord 0x280 := by
  decide

theorem fltPatchRegisters_reset (s : State) : ReadResetWords s fltPatchRegisters := by
  simp only [fltPatchRegisters, readResetWords_cons, readResetWords_nil, and_true]
  exact ⟨fltCfg_reset, rfl, rfl, rfl, rfl⟩

theorem miscPatchRegisters_reset (s : State) : ReadResetWords s miscPatchRegisters := by
  simp only [miscPatchRegisters, readResetWords_cons, readResetWords_nil, and_true]
  and_intros <;> rfl

theorem mmBaseRegister_reset (s : State) (d : Fin NDEST) : ReadsResetWord s (mmBaseRegister d) := by
  have hd : d.val < 12 := d.isLt
  exact readsResetWord_of_between 0x288 0x394 (Vector.getElem_replicate d.isLt)
    (show 0x288 < 0x300 + 4 * d.val by omega) (show 0x300 + 4 * d.val < 0x394 by omega)

theorem macroRegister_reset (s : State) (k : Fin NMACRO) : ReadsResetWord s (macroRegister k) := by
  have hk : k.val < 4 := k.isLt
  exact readsResetWord_of_between 0x288 0x394 (Vector.getElem_replicate k.isLt)
    (show 0x288 < 0x380 + 4 * k.val by omega) (show 0x380 + 4 * k.val < 0x394 by omega)

theorem ccRegister_reset (s : State) (i : Fin NCC) : ReadsResetWord s (ccRegister i) := by
  have hi : i.val < 128 := i.isLt
  exact readsResetWord_of_between 0x39C 0x10000 (Vector.getElem_replicate i.isLt)
    (show 0x39C < 0x400 + 4 * i.val by omega) (show 0x400 + 4 * i.val < 0x10000 by omega)

theorem depthRegister_reset (s : State) (r : Fin NROUTE) : ReadsResetWord s (depthRegister r) := by
  have hr : r.val < 108 := r.isLt
  exact readsResetWord_of_between 0x39C 0x10000 (Vector.getElem_replicate r.isLt)
    (show 0x39C < 0x800 + 4 * r.val by omega) (show 0x800 + 4 * r.val < 0x10000 by omega)

/-! ### The voice blocks after the reset input -/

theorem voiceRegisters_reset (s : State) (v : Fin NVOICE) : ReadResetWords s (voiceRegisters v) := by
  have hzero (off : Nat) (hoff : off < 0x040) : resetWord (voiceBase v + off) = 0#32 :=
    resetWord_outside_env v off rfl (.inl hoff)
  simp only [voiceRegisters, readOnly, readResetWords_cons, readResetWords_nil, and_true, Fin.getElem_fin,
    resetInput_voice, hzero, Nat.reduceLT]
  and_intros <;> rfl

theorem envRegisters_reset (s : State) (v : Fin NVOICE) (e : Fin NENV) :
    ReadResetWords s (envRegisters v e) := by
  simp only [envRegisters, List.cons_append, List.nil_append, readResetWords_cons, readResetWords_nil, and_true,
    Fin.getElem_fin, resetInput_voice, voiceReset_env, resetWord_env, Nat.reduceLT]
  and_intros <;> rfl

theorem oscRegisters_reset (s : State) (v : Fin NVOICE) (o : Fin NOSC) :
    ReadResetWords s (oscRegisters v o) := by
  have ho : o.val < 2 := o.isLt
  have hzero (off : Nat) (hoff : off < 0x80) : resetWord (voiceBase v + 0x200 + o.val * 0x80 + off) = 0#32 :=
    resetWord_outside_env v (0x200 + o.val * 0x80 + off) (by omega) (.inr (by omega))
  refine .append ?single (.flatMap fun u => ?lane)
  case single =>
    simp only [readResetWords_cons, readResetWords_nil, and_true, Fin.getElem_fin, resetInput_voice, voiceReset_osc,
      hzero, Nat.reduceLT]
    and_intros <;> rfl
  case lane =>
    have hu : u.val < 7 := u.isLt
    simp only [readResetWords_cons, readResetWords_nil, and_true, Fin.getElem_fin, resetInput_voice, voiceReset_osc,
      oscReset_phase, oscReset_inc, hzero (0x40 + 4 * u.val) (by omega), hzero (0x60 + 4 * u.val) (by omega)]
    and_intros <;> rfl

theorem fltRegisters_reset (s : State) (v : Fin NVOICE) : ReadResetWords s (fltRegisters v) := by
  have hzero (off : Nat) (hoff : off < 0x40) : resetWord (voiceBase v + 0x300 + off) = 0#32 :=
    resetWord_outside_env v (0x300 + off) (by omega) (.inr (by omega))
  simp only [fltRegisters, readResetWords_cons, readResetWords_nil, and_true, Fin.getElem_fin,
    resetInput_voice, hzero, Nat.reduceLT]
  and_intros <;> rfl

theorem sectionRegisters_reset (s : State) (v : Fin NVOICE) (k : Fin NSEC) :
    ReadResetWords s (sectionRegisters v k) := by
  have hk : k.val < 3 := k.isLt
  have hzero (off : Nat) (hoff : off < 0x20) : resetWord (voiceBase v + 0x340 + 0x20 * k.val + off) = 0#32 :=
    resetWord_outside_env v (0x340 + 0x20 * k.val + off) (by omega) (.inr (by omega))
  simp only [sectionRegisters, readResetWords_cons, readResetWords_nil, and_true, Fin.getElem_fin,
    resetInput_voice, voiceReset_sec, hzero, Nat.reduceLT]
  and_intros <;> rfl

theorem liveRegister_reset (s : State) (v : Fin NVOICE) (d : Fin NDEST) : ReadsResetWord s (liveRegister v d) := by
  have hd : d.val < 12 := d.isLt
  have hzero : resetWord (voiceBase v + 0x400 + 4 * d.val) = 0#32 :=
    resetWord_outside_env v (0x400 + 4 * d.val) (by omega) (.inr (by omega))
  simp only [ReadsResetWord, liveRegister, readOnly, Fin.getElem_fin, resetInput_voice, voiceReset_live, hzero]
  rfl

theorem listRegisters_reset (s : State) (v : Fin NVOICE) (i : Fin NROUTE) :
    ReadResetWords s (listRegisters v i) := by
  have hi : i.val < 108 := i.isLt
  have hindex : resetWord (voiceBase v + 0x600 + 8 * i.val) = 0#32 :=
    resetWord_outside_env v (0x600 + 8 * i.val) (by omega) (.inr (by omega))
  have hdepth : resetWord (voiceBase v + 0x604 + 8 * i.val) = 0#32 :=
    resetWord_outside_env v (0x604 + 8 * i.val) (by omega) (.inr (by omega))
  simp only [listRegisters, readOnly, readResetWords_cons, readResetWords_nil, and_true, Fin.getElem_fin,
    resetInput_voice, voiceReset_list, hindex, hdepth]
  and_intros <;> rfl

theorem voiceBlockRegisters_reset (s : State) (v : Fin NVOICE) : ReadResetWords s (voiceBlockRegisters v) :=
  (((((voiceRegisters_reset s v).append (.flatMap (envRegisters_reset s v))).append
    (.flatMap (oscRegisters_reset s v))).append (fltRegisters_reset s v)).append
    (.flatMap (sectionRegisters_reset s v))).append (.map (liveRegister_reset s v)) |>.append
    (.flatMap (listRegisters_reset s v))

theorem registers_reset (s : State) : ReadResetWords s registers :=
  ((((((((((ReadResetWords.map (argRegister_reset s)).append (globalRegisters_reset s)).append
    (.map (voiceFreeRegister_reset s))).append (.flatMap (envPatchRegisters_reset s))).append
    (.flatMap (oscPatchRegisters_reset s))).append (fltPatchRegisters_reset s)).append
    (miscPatchRegisters_reset s)).append (.map (mmBaseRegister_reset s))).append
    (.map (macroRegister_reset s))).append (.map (ccRegister_reset s))).append (.map (depthRegister_reset s)) |>.append
    (.flatMap (voiceBlockRegisters_reset s))

theorem busRead_register_reset {r : Register} (hr : r ∈ registers) (s : State) :
    (busRead (BitVec.ofNat 32 r.addr) (resetInput s)).busData = resetWord r.addr := by
  obtain ⟨hread, -⟩ := (busReachesEveryRegister (resetInput s)).1 r hr
  rw [hread]
  exact registers_reset s r hr

theorem resetInput_irqLine (s : State) : irqLine (resetInput s) = false := show (0#3 &&& 0#3 != 0#3) = false by decide

/-- Settles O17: the reset input is the next turn, and every register it leaves reads its reset column. -/
theorem resetInputRestoresTheResetState : Obligations.ResetInputRestoresTheResetState := by
  unfold Obligations.ResetInputRestoresTheResetState
  intro s rest hagenda t
  have hstep : step s = .next t := by rw [step, hagenda]; rfl
  have hlock : (busRead 0x064#32 t).busData = 0#32 := by
    obtain ⟨hread, -⟩ := wtLockIsATestAndSet t 0#32
    rw [hread]; rfl
  exact ⟨hstep, fun _ => rfl, fun r hr => busRead_register_reset hr { s with agenda := rest }, hlock,
    rfl, rfl, rfl, rfl, rfl, resetInput_irqLine { s with agenda := rest }⟩

/-! ### Envelopes and VOICE_FREE after reset (R1001) -/

theorem envInc_zero_time : fDiv f1 (fMul f48000 (clamp f0 tMin tMax)) = 0x41A6AAAB#32 := by decide

theorem envIncDb_zero_time : fMul (fNeg fNeg60) 0x41A6AAAB#32 = 0x449C4000#32 := by decide

/-- A decibel value below 0 has a gain below 1.0, so the ceiling of THR is not reached (R24, R410). -/
theorem fMin_dbToLin_floor : fMin (dbToLin fNeg60) f1 = dbToLin fNeg60 := by
  have hlt : fLt (dbToLin fNeg60) f1 = true := (functions.dbToLin_open_unit fNeg60 rfl rfl).2
  have hasymm : ¬ fLt f1 (dbToLin fNeg60) = true := by
    rw [fLt_iff] at hlt ⊢
    omega
  exact if_neg hasymm

theorem fMin_dbToLin_zero : fMin (dbToLin (clamp f0 fNeg96 f0)) f1 = f1 := by
  have hclamp : clamp f0 fNeg96 f0 = f0 := by decide
  rw [hclamp, dbToLin, functions.dbToLin_zero]
  rfl

/-- The reset values are the ones ENV_SET_TIMES computes for zero times and full sustain. -/
theorem timesSet_reset : timesSet f48000 fNeg60 f0 f0 f0 f0 false Env.reset = Env.reset := by
  simp only [timesSet, envInc_zero_time, envIncDb_zero_time, fMin_dbToLin_floor, fMin_dbToLin_zero]
  rfl

theorem readLoc_voiceFree_reset (w : Fin 8) : readLoc State.reset (.voiceFree w) = resetWord (0x080 + 4 * w.val) :=
  ((voiceFree_isLoc w).read State.reset).trans (voiceFreeRegister_reset State.reset w)

/-- Settles O18: every envelope is the one of R1001, and VOICE_FREE reads its reset column. -/
theorem resetEnvelopesAreOffWithZeroTimes : Obligations.ResetEnvelopesAreOffWithZeroTimes := by
  unfold Obligations.ResetEnvelopesAreOffWithZeroTimes
  refine ⟨fun v e => ?_, readLoc_voiceFree_reset 0, fun w hw => ?_⟩
  · have henv : State.reset.voice[v].env[e] = Env.reset := by simp
    rw [henv]
    exact ⟨rfl, timesSet_reset⟩
  · have hzero : ∀ w : Fin 8, w ≠ 0 → resetWord (0x080 + 4 * w.val) = 0#32 := by decide
    rw [readLoc_voiceFree_reset, hzero w hw]

/-! ### The invariants -/

/-- Settles O54: what the reset input leaves satisfies each invariant, and the state after reset is such a state. -/
theorem resetSatisfiesTheInvariants : Obligations.ResetSatisfiesTheInvariants := by
  unfold Obligations.ResetSatisfiesTheInvariants
  have hlegal : RegistersLegal (resetInput State.reset) := (registersLegal_iff _).2 (reset_legal _)
  have hlists : ListsValid State.reset := (listsValid_iff _).2 fun v => by
    rw [Fin.getElem_fin, reset_voice v.isLt]; exact reset_listValid
  exact ⟨resetInput_consistent State.reset, ⟨reset_ram_wf, fun _ hc => absurd hc List.not_mem_nil⟩, hlegal,
    resetInput_inUnit State.reset, hlists⟩

end Sys2Proof.Proofs
end
